-- ==== Sys2Proof/Word.lean ====
section
/-! DEFINITION. The word types of the PowerPC register set (spec 00_scope.md R12, R13). -/

namespace Sys2Proof

/-- A byte: 8 bits (R12). -/
abbrev Byte := BitVec 8

/-- A word: 32 bits (R12). -/
abbrev Word := BitVec 32

/-- A double word: 64 bits (R12). Every XLEN-wide register is held in one; on a 32-bit
implementation its high-order half is zero (log 2). -/
abbrev DWord := BitVec 64

/-- The number of a GPR, an FPR, or of one bit of CR or FPSCR in source numbering (R9, R212). -/
abbrev RegNum := BitVec 5

/-- The number of a four-bit field of CR or FPSCR, 0 leftmost (10_state.md R42, 42_fpscr.md R300). -/
abbrev FieldNum := BitVec 3

end Sys2Proof
end

