-- ==== Sys2Proof/Syntax.lean ====
section
/-! DEFINITION. The instructions: one constructor for every row of the opcode table
(spec 30_encoding.md R220), in the table's order, with the row's fields as operands. -/

namespace Sys2Proof

/-- An instruction. Register, CR-bit and field numbers, immediates and displacements are the bit
fields of R212; an SPR or TBR number is the ten-bit number n itself, its halves in natural order
(R214). OE, Rc, AA, LK and L are Booleans. -/
inductive Instr where
  /-- `twi TO,rA,SIMM` (46_other_named.md R407) -/
  | twi (cond : BitVec 5) (ra : RegNum) (simm : BitVec 16)
  /-- `cmpli crfD,L,rA,UIMM` (R416) -/
  | cmpli (crfD : FieldNum) (l : Bool) (ra : RegNum) (uimm : BitVec 16)
  /-- `cmpi crfD,L,rA,SIMM` (R414) -/
  | cmpi (crfD : FieldNum) (l : Bool) (ra : RegNum) (simm : BitVec 16)
  /-- `addic. rD,rA,SIMM` (41_cr_xer.md R277) -/
  | addicDot (rd ra : RegNum) (simm : BitVec 16)
  /-- `addi rD,rA,SIMM` (46_other_named.md R412) -/
  | addi (rd ra : RegNum) (simm : BitVec 16)
  /-- `bc BO,BI,target` (43_branch.md R324) -/
  | bc (bo bi : BitVec 5) (bd : BitVec 14) (aa lk : Bool)
  /-- `sc` (45_msr_sr_system.md R364) -/
  | sc
  /-- `b target` (43_branch.md R323) -/
  | b (li : BitVec 24) (aa lk : Bool)
  /-- `mcrf crfD,crfS` (41_cr_xer.md R272) -/
  | mcrf (crfD crfS : FieldNum)
  /-- `bclr BO,BI` (43_branch.md R325) -/
  | bclr (bo bi : BitVec 5) (lk : Bool)
  /-- `rfid` (45_msr_sr_system.md R366) -/
  | rfid
  /-- `crnor crbD,crbA,crbB` (41_cr_xer.md R274) -/
  | crnor (crbD crbA crbB : RegNum)
  /-- `rfi` (45_msr_sr_system.md R365) -/
  | rfi
  /-- `crandc` (41_cr_xer.md R274) -/
  | crandc (crbD crbA crbB : RegNum)
  /-- `crxor` (41_cr_xer.md R274) -/
  | crxor (crbD crbA crbB : RegNum)
  /-- `crnand` (41_cr_xer.md R274) -/
  | crnand (crbD crbA crbB : RegNum)
  /-- `crand` (41_cr_xer.md R274) -/
  | crand (crbD crbA crbB : RegNum)
  /-- `creqv` (41_cr_xer.md R274) -/
  | creqv (crbD crbA crbB : RegNum)
  /-- `crorc` (41_cr_xer.md R274) -/
  | crorc (crbD crbA crbB : RegNum)
  /-- `cror` (41_cr_xer.md R274) -/
  | cror (crbD crbA crbB : RegNum)
  /-- `bcctr BO,BI` (43_branch.md R326) -/
  | bcctr (bo bi : BitVec 5) (lk : Bool)
  /-- `andi. rA,rS,UIMM` (41_cr_xer.md R278) -/
  | andiDot (rs ra : RegNum) (uimm : BitVec 16)
  /-- `andis. rA,rS,UIMM` (41_cr_xer.md R280) -/
  | andisDot (rs ra : RegNum) (uimm : BitVec 16)
  /-- `cmp crfD,L,rA,rB` (46_other_named.md R413) -/
  | cmp (crfD : FieldNum) (l : Bool) (ra rb : RegNum)
  /-- `tw TO,rA,rB` (46_other_named.md R406) -/
  | tw (cond : BitVec 5) (ra rb : RegNum)
  /-- `subfc rD,rA,rB` (41_cr_xer.md R289) -/
  | subfc (rd ra rb : RegNum) (oe rc : Bool)
  /-- `mulhwu rD,rA,rB` (41_cr_xer.md R282) -/
  | mulhwu (rd ra rb : RegNum) (rc : Bool)
  /-- `mfcr rD` (41_cr_xer.md R275) -/
  | mfcr (rd : RegNum)
  /-- `cmpl crfD,L,rA,rB` (46_other_named.md R415) -/
  | cmpl (crfD : FieldNum) (l : Bool) (ra rb : RegNum)
  /-- `mulhw rD,rA,rB` (41_cr_xer.md R281) -/
  | mulhw (rd ra rb : RegNum) (rc : Bool)
  /-- `mfmsr rD` (45_msr_sr_system.md R363) -/
  | mfmsr (rd : RegNum)
  /-- `mtcrf CRM,rS` (41_cr_xer.md R271) -/
  | mtcrf (rs : RegNum) (crm : BitVec 8)
  /-- `mtmsr rS` (45_msr_sr_system.md R361) -/
  | mtmsr (rs : RegNum)
  /-- `mtmsrd rS` (45_msr_sr_system.md R362) -/
  | mtmsrd (rs : RegNum)
  /-- `mtsr SR,rS` (45_msr_sr_system.md R370) -/
  | mtsr (rs : RegNum) (sr : BitVec 4)
  /-- `mulld rD,rA,rB` (41_cr_xer.md R286) -/
  | mulld (rd ra rb : RegNum) (oe rc : Bool)
  /-- `mullw rD,rA,rB` (41_cr_xer.md R285) -/
  | mullw (rd ra rb : RegNum) (oe rc : Bool)
  /-- `mtsrin rS,rB` (45_msr_sr_system.md R371) -/
  | mtsrin (rs rb : RegNum)
  /-- `tlbie rB` (46_other_named.md R403) -/
  | tlbie (rb : RegNum)
  /-- `eciwx rD,rA,rB` (46_other_named.md R396) -/
  | eciwx (rd ra rb : RegNum)
  /-- `mfspr rD,SPR` (40_spr_access.md R252) -/
  | mfspr (rd : RegNum) (spr : BitVec 10)
  /-- `tlbia` (46_other_named.md R404) -/
  | tlbia
  /-- `mftb rD,TBR` (44_timebase_dec.md R341) -/
  | mftb (rd : RegNum) (tbr : BitVec 10)
  /-- `slbie rB` (46_other_named.md R401) -/
  | slbie (rb : RegNum)
  /-- `ecowx rS,rA,rB` (46_other_named.md R397) -/
  | ecowx (rs ra rb : RegNum)
  /-- `divdu rD,rA,rB` (41_cr_xer.md R288) -/
  | divdu (rd ra rb : RegNum) (oe rc : Bool)
  /-- `divwu rD,rA,rB` (41_cr_xer.md R284) -/
  | divwu (rd ra rb : RegNum) (oe rc : Bool)
  /-- `mtspr SPR,rS` (40_spr_access.md R251) -/
  | mtspr (rs : RegNum) (spr : BitVec 10)
  /-- `divd rD,rA,rB` (41_cr_xer.md R287) -/
  | divd (rd ra rb : RegNum) (oe rc : Bool)
  /-- `divw rD,rA,rB` (41_cr_xer.md R283) -/
  | divw (rd ra rb : RegNum) (oe rc : Bool)
  /-- `slbia` (46_other_named.md R402) -/
  | slbia
  /-- `mcrxr crfD` (41_cr_xer.md R273) -/
  | mcrxr (crfD : FieldNum)
  /-- `lswx rD,rA,rB` (46_other_named.md R391) -/
  | lswx (rd ra rb : RegNum)
  /-- `mfsr rD,SR` (45_msr_sr_system.md R372) -/
  | mfsr (rd : RegNum) (sr : BitVec 4)
  /-- `sync` (46_other_named.md R400) -/
  | sync
  /-- `mfsrin rD,rB` (45_msr_sr_system.md R373) -/
  | mfsrin (rd rb : RegNum)
  /-- `stswx rS,rA,rB` (46_other_named.md R392) -/
  | stswx (rs ra rb : RegNum)
  /-- `lwz rD,d(rA)` (46_other_named.md R417) -/
  | lwz (rd ra : RegNum) (d : BitVec 16)
  /-- `mtfsb1 crbD` (42_fpscr.md R305) -/
  | mtfsb1 (crbD : RegNum) (rc : Bool)
  /-- `mcrfs crfD,crfS` (42_fpscr.md R301) -/
  | mcrfs (crfD crfS : FieldNum)
  /-- `mtfsb0 crbD` (42_fpscr.md R304) -/
  | mtfsb0 (crbD : RegNum) (rc : Bool)
  /-- `mtfsfi crfD,IMM` (42_fpscr.md R302) -/
  | mtfsfi (crfD : FieldNum) (imm : BitVec 4) (rc : Bool)
  /-- `mffs frD` (42_fpscr.md R306) -/
  | mffs (frd : RegNum) (rc : Bool)
  /-- `mtfsf FM,frB` (42_fpscr.md R303) -/
  | mtfsf (fm : BitVec 8) (frb : RegNum) (rc : Bool)
deriving DecidableEq, Repr

end Sys2Proof
end

