-- ==== Sys2Proof/WellFormed.lean ====
section
/-! DEFINITION. Which instructions are well formed as syntax.

The operand types already bound every field. What is left are the two invalid forms that the
operands alone show: `bcctr` with BO{2} = 0 (spec 43_branch.md R326) and `lswx` with rD = rA or
rD = rB (46_other_named.md R391). A compare with L = 1 is invalid on a 32-bit implementation only
(R413), so its meaning decides. -/

namespace Sys2Proof

/-- The instruction is no invalid form on every implementation. -/
def Instr.wellFormed : Instr → Bool
  | .twi _ _ _ => true
  | .cmpli _ _ _ _ => true
  | .cmpi _ _ _ _ => true
  | .addicDot _ _ _ => true
  | .addi _ _ _ => true
  | .bc _ _ _ _ _ => true
  | .sc => true
  | .b _ _ _ => true
  | .mcrf _ _ => true
  | .bclr _ _ _ => true
  | .rfid => true
  | .crnor _ _ _ => true
  | .rfi => true
  | .crandc _ _ _ => true
  | .crxor _ _ _ => true
  | .crnand _ _ _ => true
  | .crand _ _ _ => true
  | .creqv _ _ _ => true
  | .crorc _ _ _ => true
  | .cror _ _ _ => true
  | .bcctr bo _ _ => bo.getLsbD 2
  | .andiDot _ _ _ => true
  | .andisDot _ _ _ => true
  | .cmp _ _ _ _ => true
  | .tw _ _ _ => true
  | .subfc _ _ _ _ _ => true
  | .mulhwu _ _ _ _ => true
  | .mfcr _ => true
  | .cmpl _ _ _ _ => true
  | .mulhw _ _ _ _ => true
  | .mfmsr _ => true
  | .mtcrf _ _ => true
  | .mtmsr _ => true
  | .mtmsrd _ => true
  | .mtsr _ _ => true
  | .mulld _ _ _ _ _ => true
  | .mullw _ _ _ _ _ => true
  | .mtsrin _ _ => true
  | .tlbie _ => true
  | .eciwx _ _ _ => true
  | .mfspr _ _ => true
  | .tlbia => true
  | .mftb _ _ => true
  | .slbie _ => true
  | .ecowx _ _ _ => true
  | .divdu _ _ _ _ _ => true
  | .divwu _ _ _ _ _ => true
  | .mtspr _ _ => true
  | .divd _ _ _ _ _ => true
  | .divw _ _ _ _ _ => true
  | .slbia => true
  | .mcrxr _ => true
  | .lswx rd ra rb => rd != ra && rd != rb
  | .mfsr _ _ => true
  | .sync => true
  | .mfsrin _ _ => true
  | .stswx _ _ _ => true
  | .lwz _ _ _ => true
  | .mtfsb1 _ _ => true
  | .mcrfs _ _ => true
  | .mtfsb0 _ _ => true
  | .mtfsfi _ _ _ => true
  | .mffs _ _ => true
  | .mtfsf _ _ _ => true

end Sys2Proof
end

