-- ==== Sys2Proof/Decode.lean ====
section
/-! DEFINITION. The decoder and, after it, the encoder (spec 30_encoding.md R210 to R224).

Every instruction is one 32-bit word (R210). The tables below give field places in the LSB-0
numbering of the opcode table. Both directions are arithmetic on the word as a number, so that
the kernel evaluates them on numerals. -/

namespace Sys2Proof

/-! ## Fields of a word -/

/-- Bits [lo + len - 1 : lo] of a word, as a number. -/
def bits (w lo len : Nat) : Nat := w / 2 ^ lo % 2 ^ len

/-- Bits [lo + len - 1 : lo] of a word, as a bit string (R212). -/
def fld (w lo len : Nat) : BitVec len := BitVec.ofNat len (w / 2 ^ lo)

/-- Bit [lo] of a word. -/
def flag (w lo : Nat) : Bool := bits w lo 1 == 1

/-- The SPR or TBR number of a word: n = word[15:11] followed by word[20:16] (R214). -/
def sprOf (w : Nat) : BitVec 10 := BitVec.ofNat 10 (bits w 11 5 * 2 ^ 5 + bits w 16 5)

/-- The ten-bit `spr` field that holds number n: its halves swapped (R214). -/
def sprField (n : BitVec 10) : Nat := bits n.toNat 0 5 * 2 ^ 5 + bits n.toNat 5 5

/-- Why a word is no instruction of the opcode table. Such a word is outside the spec, not an
illegal instruction (R223): the step refuses it. -/
inductive DecodeError where
  /-- No row has this primary opcode. -/
  | primaryOpcode (op : Nat)
  /-- No row of this primary opcode has this extended opcode. -/
  | extendedOpcode (op xo : Nat)
  /-- A row's opcodes match but a reserved bit of it is not as the row asks. -/
  | reservedBits (w : Nat)
  /-- Fewer than four bytes were given. -/
  | tooShort
deriving DecidableEq, Repr

/-! ## The decoder -/

/-- Primary opcode 19: the XL group (R220). -/
def decode19 (w : Nat) : Except DecodeError Instr :=
  match bits w 1 10 with
  | 0 => if bits w 0 1 = 0 ∧ bits w 11 7 = 0 ∧ bits w 21 2 = 0
      then .ok (.mcrf (fld w 23 3) (fld w 18 3))
      else .error (.reservedBits w)
  | 16 => if bits w 11 5 = 0
      then .ok (.bclr (fld w 21 5) (fld w 16 5) (flag w 0))
      else .error (.reservedBits w)
  | 18 => if bits w 0 1 = 0 ∧ bits w 11 15 = 0 then .ok .rfid else .error (.reservedBits w)
  | 33 => if bits w 0 1 = 0
      then .ok (.crnor (fld w 21 5) (fld w 16 5) (fld w 11 5))
      else .error (.reservedBits w)
  | 50 => if bits w 0 1 = 0 ∧ bits w 11 15 = 0 then .ok .rfi else .error (.reservedBits w)
  | 129 => if bits w 0 1 = 0
      then .ok (.crandc (fld w 21 5) (fld w 16 5) (fld w 11 5))
      else .error (.reservedBits w)
  | 193 => if bits w 0 1 = 0
      then .ok (.crxor (fld w 21 5) (fld w 16 5) (fld w 11 5))
      else .error (.reservedBits w)
  | 225 => if bits w 0 1 = 0
      then .ok (.crnand (fld w 21 5) (fld w 16 5) (fld w 11 5))
      else .error (.reservedBits w)
  | 257 => if bits w 0 1 = 0
      then .ok (.crand (fld w 21 5) (fld w 16 5) (fld w 11 5))
      else .error (.reservedBits w)
  | 289 => if bits w 0 1 = 0
      then .ok (.creqv (fld w 21 5) (fld w 16 5) (fld w 11 5))
      else .error (.reservedBits w)
  | 417 => if bits w 0 1 = 0
      then .ok (.crorc (fld w 21 5) (fld w 16 5) (fld w 11 5))
      else .error (.reservedBits w)
  | 449 => if bits w 0 1 = 0
      then .ok (.cror (fld w 21 5) (fld w 16 5) (fld w 11 5))
      else .error (.reservedBits w)
  | 528 => if bits w 11 5 = 0
      then .ok (.bcctr (fld w 21 5) (fld w 16 5) (flag w 0))
      else .error (.reservedBits w)
  | xo => .error (.extendedOpcode 19 xo)

/-- Primary opcode 31: the X, XO and XFX group (R220). -/
def decode31 (w : Nat) : Except DecodeError Instr :=
  match bits w 1 10 with
  | 0 => if bits w 0 1 = 0 ∧ bits w 22 1 = 0
      then .ok (.cmp (fld w 23 3) (flag w 21) (fld w 16 5) (fld w 11 5))
      else .error (.reservedBits w)
  | 4 => if bits w 0 1 = 0 then .ok (.tw (fld w 21 5) (fld w 16 5) (fld w 11 5)) else .error (.reservedBits w)
  | 8 | 520 => .ok (.subfc (fld w 21 5) (fld w 16 5) (fld w 11 5) (flag w 10) (flag w 0))
  | 11 => .ok (.mulhwu (fld w 21 5) (fld w 16 5) (fld w 11 5) (flag w 0))
  | 19 => if bits w 0 1 = 0 ∧ bits w 11 10 = 0 then .ok (.mfcr (fld w 21 5)) else .error (.reservedBits w)
  | 32 => if bits w 0 1 = 0 ∧ bits w 22 1 = 0
      then .ok (.cmpl (fld w 23 3) (flag w 21) (fld w 16 5) (fld w 11 5))
      else .error (.reservedBits w)
  | 75 => .ok (.mulhw (fld w 21 5) (fld w 16 5) (fld w 11 5) (flag w 0))
  | 83 => if bits w 0 1 = 0 ∧ bits w 11 10 = 0 then .ok (.mfmsr (fld w 21 5)) else .error (.reservedBits w)
  | 144 => if bits w 0 1 = 0 ∧ bits w 11 1 = 0 ∧ bits w 20 1 = 0
      then .ok (.mtcrf (fld w 21 5) (fld w 12 8))
      else .error (.reservedBits w)
  | 146 => if bits w 0 1 = 0 ∧ bits w 11 10 = 0 then .ok (.mtmsr (fld w 21 5)) else .error (.reservedBits w)
  | 178 => if bits w 0 1 = 0 ∧ bits w 11 10 = 0 then .ok (.mtmsrd (fld w 21 5)) else .error (.reservedBits w)
  | 210 => if bits w 0 1 = 0 ∧ bits w 11 5 = 0 ∧ bits w 20 1 = 0
      then .ok (.mtsr (fld w 21 5) (fld w 16 4))
      else .error (.reservedBits w)
  | 233 | 745 => .ok (.mulld (fld w 21 5) (fld w 16 5) (fld w 11 5) (flag w 10) (flag w 0))
  | 235 | 747 => .ok (.mullw (fld w 21 5) (fld w 16 5) (fld w 11 5) (flag w 10) (flag w 0))
  | 242 => if bits w 0 1 = 0 ∧ bits w 16 5 = 0
      then .ok (.mtsrin (fld w 21 5) (fld w 11 5))
      else .error (.reservedBits w)
  | 306 => if bits w 0 1 = 0 ∧ bits w 16 10 = 0 then .ok (.tlbie (fld w 11 5)) else .error (.reservedBits w)
  | 310 => if bits w 0 1 = 0
      then .ok (.eciwx (fld w 21 5) (fld w 16 5) (fld w 11 5))
      else .error (.reservedBits w)
  | 339 => if bits w 0 1 = 0 then .ok (.mfspr (fld w 21 5) (sprOf w)) else .error (.reservedBits w)
  | 370 => if bits w 0 1 = 0 ∧ bits w 11 15 = 0 then .ok .tlbia else .error (.reservedBits w)
  | 371 => if bits w 0 1 = 0 then .ok (.mftb (fld w 21 5) (sprOf w)) else .error (.reservedBits w)
  | 434 => if bits w 0 1 = 0 ∧ bits w 16 10 = 0 then .ok (.slbie (fld w 11 5)) else .error (.reservedBits w)
  | 438 => if bits w 0 1 = 0
      then .ok (.ecowx (fld w 21 5) (fld w 16 5) (fld w 11 5))
      else .error (.reservedBits w)
  | 457 | 969 => .ok (.divdu (fld w 21 5) (fld w 16 5) (fld w 11 5) (flag w 10) (flag w 0))
  | 459 | 971 => .ok (.divwu (fld w 21 5) (fld w 16 5) (fld w 11 5) (flag w 10) (flag w 0))
  | 467 => if bits w 0 1 = 0 then .ok (.mtspr (fld w 21 5) (sprOf w)) else .error (.reservedBits w)
  | 489 | 1001 => .ok (.divd (fld w 21 5) (fld w 16 5) (fld w 11 5) (flag w 10) (flag w 0))
  | 491 | 1003 => .ok (.divw (fld w 21 5) (fld w 16 5) (fld w 11 5) (flag w 10) (flag w 0))
  | 498 => if bits w 0 1 = 0 ∧ bits w 11 15 = 0 then .ok .slbia else .error (.reservedBits w)
  | 512 => if bits w 0 1 = 0 ∧ bits w 11 12 = 0 then .ok (.mcrxr (fld w 23 3)) else .error (.reservedBits w)
  | 533 => if bits w 0 1 = 0
      then .ok (.lswx (fld w 21 5) (fld w 16 5) (fld w 11 5))
      else .error (.reservedBits w)
  | 595 => if bits w 0 1 = 0 ∧ bits w 11 5 = 0 ∧ bits w 20 1 = 0
      then .ok (.mfsr (fld w 21 5) (fld w 16 4))
      else .error (.reservedBits w)
  | 598 => if bits w 0 1 = 0 ∧ bits w 11 15 = 0 then .ok .sync else .error (.reservedBits w)
  | 659 => if bits w 0 1 = 0 ∧ bits w 16 5 = 0
      then .ok (.mfsrin (fld w 21 5) (fld w 11 5))
      else .error (.reservedBits w)
  | 661 => if bits w 0 1 = 0
      then .ok (.stswx (fld w 21 5) (fld w 16 5) (fld w 11 5))
      else .error (.reservedBits w)
  | xo => .error (.extendedOpcode 31 xo)

/-- Primary opcode 63: the floating-point group (R220). -/
def decode63 (w : Nat) : Except DecodeError Instr :=
  match bits w 1 10 with
  | 38 => if bits w 11 10 = 0 then .ok (.mtfsb1 (fld w 21 5) (flag w 0)) else .error (.reservedBits w)
  | 64 => if bits w 0 1 = 0 ∧ bits w 11 7 = 0 ∧ bits w 21 2 = 0
      then .ok (.mcrfs (fld w 23 3) (fld w 18 3))
      else .error (.reservedBits w)
  | 70 => if bits w 11 10 = 0 then .ok (.mtfsb0 (fld w 21 5) (flag w 0)) else .error (.reservedBits w)
  | 134 => if bits w 11 1 = 0 ∧ bits w 16 7 = 0
      then .ok (.mtfsfi (fld w 23 3) (fld w 12 4) (flag w 0))
      else .error (.reservedBits w)
  | 583 => if bits w 11 10 = 0 then .ok (.mffs (fld w 21 5) (flag w 0)) else .error (.reservedBits w)
  | 711 => if bits w 16 1 = 0 ∧ bits w 25 1 = 0
      then .ok (.mtfsf (fld w 17 8) (fld w 11 5) (flag w 0))
      else .error (.reservedBits w)
  | xo => .error (.extendedOpcode 63 xo)

/-- The decoder over the word as a number: by primary opcode, bits [31:26] (R210, R220). -/
def decodeNat (w : Nat) : Except DecodeError Instr :=
  match bits w 26 6 with
  | 3 => .ok (.twi (fld w 21 5) (fld w 16 5) (fld w 0 16))
  | 10 => if bits w 22 1 = 0
      then .ok (.cmpli (fld w 23 3) (flag w 21) (fld w 16 5) (fld w 0 16))
      else .error (.reservedBits w)
  | 11 => if bits w 22 1 = 0
      then .ok (.cmpi (fld w 23 3) (flag w 21) (fld w 16 5) (fld w 0 16))
      else .error (.reservedBits w)
  | 13 => .ok (.addicDot (fld w 21 5) (fld w 16 5) (fld w 0 16))
  | 14 => .ok (.addi (fld w 21 5) (fld w 16 5) (fld w 0 16))
  | 16 => .ok (.bc (fld w 21 5) (fld w 16 5) (fld w 2 14) (flag w 1) (flag w 0))
  | 17 => if bits w 0 26 = 2 then .ok .sc else .error (.reservedBits w)
  | 18 => .ok (.b (fld w 2 24) (flag w 1) (flag w 0))
  | 19 => decode19 w
  | 28 => .ok (.andiDot (fld w 21 5) (fld w 16 5) (fld w 0 16))
  | 29 => .ok (.andisDot (fld w 21 5) (fld w 16 5) (fld w 0 16))
  | 31 => decode31 w
  | 32 => .ok (.lwz (fld w 21 5) (fld w 16 5) (fld w 0 16))
  | 63 => decode63 w
  | op => .error (.primaryOpcode op)

/-- The decoder: the instruction a word stands for, or the reason it stands for none. -/
def decode (w : Word) : Except DecodeError Instr := decodeNat w.toNat

/-! ## Words and bytes (20_memory.md R172: big-endian) -/

/-- The four bytes of a word in memory order, the high-order byte at the lowest address. -/
def wordBytes (w : Word) : List Byte :=
  [w.extractLsb' 24 8, w.extractLsb' 16 8, w.extractLsb' 8 8, w.extractLsb' 0 8]

/-- The word that four bytes in memory order make. -/
def bytesWord (b0 b1 b2 b3 : Byte) : Word :=
  BitVec.ofNat 32 (b0.toNat * 2 ^ 24 + b1.toNat * 2 ^ 16 + b2.toNat * 2 ^ 8 + b3.toNat)

/-- Decodes the first instruction of a byte sequence and returns the bytes after it. -/
def decodeBytes : List Byte → Except DecodeError (Instr × List Byte)
  | b0 :: b1 :: b2 :: b3 :: rest => (decode (bytesWord b0 b1 b2 b3)).map (·, rest)
  | _ => .error .tooShort

/-- The instruction the decoder reads from the word `w` of a row of `nbits` bits: bits from nbits
up are 0. The word is laid out as memory holds it and decoded from those bytes. -/
def decodeTableWord (nbits w : Nat) : Option Instr :=
  match decodeBytes (wordBytes (BitVec.ofNat 32 (w % 2 ^ nbits))) with
  | .ok (i, _) => some i
  | .error _ => none

/-! ## The encoder -/

/-- The D format (R211): a 16-bit immediate in bits [15:0]. -/
def dForm (op a b imm : Nat) : Nat := op * 2 ^ 26 + a * 2 ^ 21 + b * 2 ^ 16 + imm

/-- The X and XL formats (R211): three five-bit places, XO in bits [10:1], Rc or LK in bit [0]. -/
def xForm (op xo a b c r : Nat) : Nat :=
  op * 2 ^ 26 + a * 2 ^ 21 + b * 2 ^ 16 + c * 2 ^ 11 + xo * 2 + r

/-- The XO format (R211): as X with OE in bit [10]. -/
def xoForm (xo a b c oe r : Nat) : Nat :=
  31 * 2 ^ 26 + a * 2 ^ 21 + b * 2 ^ 16 + c * 2 ^ 11 + oe * 2 ^ 10 + xo * 2 + r

/-- The XFX format (R211): bits [20:10] in one piece. -/
def xfxForm (xo a f : Nat) : Nat := 31 * 2 ^ 26 + a * 2 ^ 21 + f * 2 ^ 10 + xo * 2

/-- The instruction as a number: its opcodes and fields at the places R211, R212 and R220 give
them, every reserved bit 0. -/
def encodeNat : Instr → Nat
  | .twi cond ra simm => dForm 3 cond.toNat ra.toNat simm.toNat
  | .cmpli crfD l ra uimm => dForm 10 (crfD.toNat * 4 + l.toNat) ra.toNat uimm.toNat
  | .cmpi crfD l ra simm => dForm 11 (crfD.toNat * 4 + l.toNat) ra.toNat simm.toNat
  | .addicDot rd ra simm => dForm 13 rd.toNat ra.toNat simm.toNat
  | .addi rd ra simm => dForm 14 rd.toNat ra.toNat simm.toNat
  | .bc bo bi bd aa lk => dForm 16 bo.toNat bi.toNat (bd.toNat * 4 + aa.toNat * 2 + lk.toNat)
  | .sc => 17 * 2 ^ 26 + 2
  | .b li aa lk => 18 * 2 ^ 26 + li.toNat * 4 + aa.toNat * 2 + lk.toNat
  | .mcrf crfD crfS => xForm 19 0 (crfD.toNat * 4) (crfS.toNat * 4) 0 0
  | .bclr bo bi lk => xForm 19 16 bo.toNat bi.toNat 0 lk.toNat
  | .rfid => xForm 19 18 0 0 0 0
  | .crnor crbD crbA crbB => xForm 19 33 crbD.toNat crbA.toNat crbB.toNat 0
  | .rfi => xForm 19 50 0 0 0 0
  | .crandc crbD crbA crbB => xForm 19 129 crbD.toNat crbA.toNat crbB.toNat 0
  | .crxor crbD crbA crbB => xForm 19 193 crbD.toNat crbA.toNat crbB.toNat 0
  | .crnand crbD crbA crbB => xForm 19 225 crbD.toNat crbA.toNat crbB.toNat 0
  | .crand crbD crbA crbB => xForm 19 257 crbD.toNat crbA.toNat crbB.toNat 0
  | .creqv crbD crbA crbB => xForm 19 289 crbD.toNat crbA.toNat crbB.toNat 0
  | .crorc crbD crbA crbB => xForm 19 417 crbD.toNat crbA.toNat crbB.toNat 0
  | .cror crbD crbA crbB => xForm 19 449 crbD.toNat crbA.toNat crbB.toNat 0
  | .bcctr bo bi lk => xForm 19 528 bo.toNat bi.toNat 0 lk.toNat
  | .andiDot rs ra uimm => dForm 28 rs.toNat ra.toNat uimm.toNat
  | .andisDot rs ra uimm => dForm 29 rs.toNat ra.toNat uimm.toNat
  | .cmp crfD l ra rb => xForm 31 0 (crfD.toNat * 4 + l.toNat) ra.toNat rb.toNat 0
  | .tw cond ra rb => xForm 31 4 cond.toNat ra.toNat rb.toNat 0
  | .subfc rd ra rb oe rc => xoForm 8 rd.toNat ra.toNat rb.toNat oe.toNat rc.toNat
  | .mulhwu rd ra rb rc => xForm 31 11 rd.toNat ra.toNat rb.toNat rc.toNat
  | .mfcr rd => xForm 31 19 rd.toNat 0 0 0
  | .cmpl crfD l ra rb => xForm 31 32 (crfD.toNat * 4 + l.toNat) ra.toNat rb.toNat 0
  | .mulhw rd ra rb rc => xForm 31 75 rd.toNat ra.toNat rb.toNat rc.toNat
  | .mfmsr rd => xForm 31 83 rd.toNat 0 0 0
  | .mtcrf rs crm => xfxForm 144 rs.toNat (crm.toNat * 4)
  | .mtmsr rs => xForm 31 146 rs.toNat 0 0 0
  | .mtmsrd rs => xForm 31 178 rs.toNat 0 0 0
  | .mtsr rs sr => xForm 31 210 rs.toNat sr.toNat 0 0
  | .mulld rd ra rb oe rc => xoForm 233 rd.toNat ra.toNat rb.toNat oe.toNat rc.toNat
  | .mullw rd ra rb oe rc => xoForm 235 rd.toNat ra.toNat rb.toNat oe.toNat rc.toNat
  | .mtsrin rs rb => xForm 31 242 rs.toNat 0 rb.toNat 0
  | .tlbie rb => xForm 31 306 0 0 rb.toNat 0
  | .eciwx rd ra rb => xForm 31 310 rd.toNat ra.toNat rb.toNat 0
  | .mfspr rd spr => xfxForm 339 rd.toNat (sprField spr * 2)
  | .tlbia => xForm 31 370 0 0 0 0
  | .mftb rd tbr => xfxForm 371 rd.toNat (sprField tbr * 2)
  | .slbie rb => xForm 31 434 0 0 rb.toNat 0
  | .ecowx rs ra rb => xForm 31 438 rs.toNat ra.toNat rb.toNat 0
  | .divdu rd ra rb oe rc => xoForm 457 rd.toNat ra.toNat rb.toNat oe.toNat rc.toNat
  | .divwu rd ra rb oe rc => xoForm 459 rd.toNat ra.toNat rb.toNat oe.toNat rc.toNat
  | .mtspr rs spr => xfxForm 467 rs.toNat (sprField spr * 2)
  | .divd rd ra rb oe rc => xoForm 489 rd.toNat ra.toNat rb.toNat oe.toNat rc.toNat
  | .divw rd ra rb oe rc => xoForm 491 rd.toNat ra.toNat rb.toNat oe.toNat rc.toNat
  | .slbia => xForm 31 498 0 0 0 0
  | .mcrxr crfD => xForm 31 512 (crfD.toNat * 4) 0 0 0
  | .lswx rd ra rb => xForm 31 533 rd.toNat ra.toNat rb.toNat 0
  | .mfsr rd sr => xForm 31 595 rd.toNat sr.toNat 0 0
  | .sync => xForm 31 598 0 0 0 0
  | .mfsrin rd rb => xForm 31 659 rd.toNat 0 rb.toNat 0
  | .stswx rs ra rb => xForm 31 661 rs.toNat ra.toNat rb.toNat 0
  | .lwz rd ra d => dForm 32 rd.toNat ra.toNat d.toNat
  | .mtfsb1 crbD rc => xForm 63 38 crbD.toNat 0 0 rc.toNat
  | .mcrfs crfD crfS => xForm 63 64 (crfD.toNat * 4) (crfS.toNat * 4) 0 0
  | .mtfsb0 crbD rc => xForm 63 70 crbD.toNat 0 0 rc.toNat
  | .mtfsfi crfD imm rc => xForm 63 134 (crfD.toNat * 4) 0 (imm.toNat * 2) rc.toNat
  | .mffs frd rc => xForm 63 583 frd.toNat 0 0 rc.toNat
  | .mtfsf fm frb rc => 63 * 2 ^ 26 + fm.toNat * 2 ^ 17 + frb.toNat * 2 ^ 11 + 711 * 2 + rc.toNat

/-- The word of an instruction. -/
def encode (i : Instr) : Word := BitVec.ofNat 32 (encodeNat i)

/-! ## The opcode table as data -/

/-- A row of the opcode table: a word w is this instruction iff w &&& mask = match (R220). -/
structure OpcodeRow where
  mnemonic : String
  pattern : Word
  mask : Word
deriving DecidableEq, Repr

/-- The word satisfies the row. -/
def OpcodeRow.matches (r : OpcodeRow) (w : Word) : Bool := w &&& r.mask == r.pattern

/-- Some word satisfies both rows. -/
def OpcodeRow.overlaps (r q : OpcodeRow) : Bool :=
  r.pattern &&& (r.mask &&& q.mask) == q.pattern &&& (r.mask &&& q.mask)

/-- The opcode table of R220, part 1. -/
def opcodeRows1 : List OpcodeRow :=
  [⟨"twi", 0x0C000000, 0xFC000000⟩,
   ⟨"cmpli", 0x28000000, 0xFC400000⟩,
   ⟨"cmpi", 0x2C000000, 0xFC400000⟩,
   ⟨"addic.", 0x34000000, 0xFC000000⟩,
   ⟨"addi", 0x38000000, 0xFC000000⟩,
   ⟨"bc", 0x40000000, 0xFC000000⟩,
   ⟨"sc", 0x44000002, 0xFFFFFFFF⟩,
   ⟨"b", 0x48000000, 0xFC000000⟩,
   ⟨"mcrf", 0x4C000000, 0xFC63FFFF⟩,
   ⟨"bclr", 0x4C000020, 0xFC00FFFE⟩,
   ⟨"rfid", 0x4C000024, 0xFFFFFFFF⟩,
   ⟨"crnor", 0x4C000042, 0xFC0007FF⟩,
   ⟨"rfi", 0x4C000064, 0xFFFFFFFF⟩,
   ⟨"crandc", 0x4C000102, 0xFC0007FF⟩,
   ⟨"crxor", 0x4C000182, 0xFC0007FF⟩,
   ⟨"crnand", 0x4C0001C2, 0xFC0007FF⟩]

/-- The opcode table of R220, part 2. -/
def opcodeRows2 : List OpcodeRow :=
  [⟨"crand", 0x4C000202, 0xFC0007FF⟩,
   ⟨"creqv", 0x4C000242, 0xFC0007FF⟩,
   ⟨"crorc", 0x4C000342, 0xFC0007FF⟩,
   ⟨"cror", 0x4C000382, 0xFC0007FF⟩,
   ⟨"bcctr", 0x4C000420, 0xFC00FFFE⟩,
   ⟨"andi.", 0x70000000, 0xFC000000⟩,
   ⟨"andis.", 0x74000000, 0xFC000000⟩,
   ⟨"cmp", 0x7C000000, 0xFC4007FF⟩,
   ⟨"tw", 0x7C000008, 0xFC0007FF⟩,
   ⟨"subfc", 0x7C000010, 0xFC0003FE⟩,
   ⟨"mulhwu", 0x7C000016, 0xFC0007FE⟩,
   ⟨"mfcr", 0x7C000026, 0xFC1FFFFF⟩,
   ⟨"cmpl", 0x7C000040, 0xFC4007FF⟩,
   ⟨"mulhw", 0x7C000096, 0xFC0007FE⟩,
   ⟨"mfmsr", 0x7C0000A6, 0xFC1FFFFF⟩,
   ⟨"mtcrf", 0x7C000120, 0xFC100FFF⟩]

/-- The opcode table of R220, part 3. -/
def opcodeRows3 : List OpcodeRow :=
  [⟨"mtmsr", 0x7C000124, 0xFC1FFFFF⟩,
   ⟨"mtmsrd", 0x7C000164, 0xFC1FFFFF⟩,
   ⟨"mtsr", 0x7C0001A4, 0xFC10FFFF⟩,
   ⟨"mulld", 0x7C0001D2, 0xFC0003FE⟩,
   ⟨"mullw", 0x7C0001D6, 0xFC0003FE⟩,
   ⟨"mtsrin", 0x7C0001E4, 0xFC1F07FF⟩,
   ⟨"tlbie", 0x7C000264, 0xFFFF07FF⟩,
   ⟨"eciwx", 0x7C00026C, 0xFC0007FF⟩,
   ⟨"mfspr", 0x7C0002A6, 0xFC0007FF⟩,
   ⟨"tlbia", 0x7C0002E4, 0xFFFFFFFF⟩,
   ⟨"mftb", 0x7C0002E6, 0xFC0007FF⟩,
   ⟨"slbie", 0x7C000364, 0xFFFF07FF⟩,
   ⟨"ecowx", 0x7C00036C, 0xFC0007FF⟩,
   ⟨"divdu", 0x7C000392, 0xFC0003FE⟩,
   ⟨"divwu", 0x7C000396, 0xFC0003FE⟩,
   ⟨"mtspr", 0x7C0003A6, 0xFC0007FF⟩]

/-- The opcode table of R220, part 4. -/
def opcodeRows4 : List OpcodeRow :=
  [⟨"divd", 0x7C0003D2, 0xFC0003FE⟩,
   ⟨"divw", 0x7C0003D6, 0xFC0003FE⟩,
   ⟨"slbia", 0x7C0003E4, 0xFFFFFFFF⟩,
   ⟨"mcrxr", 0x7C000400, 0xFC7FFFFF⟩,
   ⟨"lswx", 0x7C00042A, 0xFC0007FF⟩,
   ⟨"mfsr", 0x7C0004A6, 0xFC10FFFF⟩,
   ⟨"sync", 0x7C0004AC, 0xFFFFFFFF⟩,
   ⟨"mfsrin", 0x7C000526, 0xFC1F07FF⟩,
   ⟨"stswx", 0x7C00052A, 0xFC0007FF⟩,
   ⟨"lwz", 0x80000000, 0xFC000000⟩,
   ⟨"mtfsb1", 0xFC00004C, 0xFC1FFFFE⟩,
   ⟨"mcrfs", 0xFC000080, 0xFC63FFFF⟩,
   ⟨"mtfsb0", 0xFC00008C, 0xFC1FFFFE⟩,
   ⟨"mtfsfi", 0xFC00010C, 0xFC7F0FFE⟩,
   ⟨"mffs", 0xFC00048E, 0xFC1FFFFE⟩,
   ⟨"mtfsf", 0xFC00058E, 0xFE0107FE⟩]

/-- The opcode table of R220: every row, in the table's order. -/
def opcodeTable : List OpcodeRow := opcodeRows1 ++ opcodeRows2 ++ opcodeRows3 ++ opcodeRows4

end Sys2Proof
end

