-- ==== Sys2Proof/Config.lean ====
section
/-! DEFINITION. What an implementation fixes (spec 00_scope.md R5) as plain data, and the free
values of the architecture as constants without a body (log 1, log 6). -/

namespace Sys2Proof

/-- What `mtspr`, `mfspr` and `mftb` do with an undefined register number: UNDEF_SPR_POLICY
(40_spr_access.md R256, D7). -/
inductive UndefSprPolicy where
  | illegal      -- the illegal instruction program exception
  | privileged   -- the privileged instruction program exception
  | refuse       -- boundedly undefined: no meaning
deriving DecidableEq, Repr

/-- What a reserved bit reads after a 1 was written: RESERVED_READ (10_state.md R32, D8, U1). -/
inductive ReservedReadPolicy where
  | draw         -- an undefined value at each read
  | asWritten    -- what was written
  | zero         -- 0
deriving DecidableEq, Repr

/-- What an implementation does with a misaligned word access (20_memory.md R174,
60_exceptions.md R434, D16). -/
inductive AlignPolicy where
  | trap         -- the alignment exception
  | perform      -- the access is made
  | refuse       -- no meaning
deriving DecidableEq, Repr

/-- The platform's answer to an access outside the physical memory (20_memory.md R177, D18). -/
inductive AbsentPolicy where
  | machineCheck
  | refuse
deriving DecidableEq, Repr

/-- What floating-point arithmetic does while FPSCR[NI] = 1: NI_EFFECTS (10_state.md R81, D10, U6). -/
inductive NiPolicy where
  | refuse       -- no meaning
  | conform      -- NI has no effect: "results need not conform", and may
deriving DecidableEq, Repr

/-- A stretch of physical memory that exists: `size` bytes from `base` (R177, D18). -/
structure Region where
  base : Nat
  size : Nat
deriving DecidableEq, Repr

/-- Who reads a register that has reserved bits. Two reads of one step are told apart, so that
nothing follows about one from the other (log 7). -/
inductive ReservedReader where
  | mfspr (n : BitVec 10)
  | mfmsr
  | mfsr
  | mffs
  | mcrfs
  | mcrxr
  | exceptionEntry  -- MSR as it is copied into SRR1
deriving DecidableEq, Repr

/-- The implementation parameters of R5. They never change while the machine runs. -/
structure Config where
  /-- XLEN = 64 (D1). -/
  xlen64 : Bool
  /-- HAS_BRIDGE (D2); meaningful only with `xlen64`. -/
  hasBridge : Bool
  hasFpecr : Bool
  hasEar : Bool
  hasDabr : Bool
  hasPir : Bool
  /-- HAS_POW: MSR[POW] is implemented (else reserved). -/
  hasPow : Bool
  /-- HAS_SE: single-step trace is implemented (else MSR[SE] is reserved). -/
  hasSe : Bool
  /-- HAS_BE: branch trace is implemented (else MSR[BE] is reserved). -/
  hasBe : Bool
  /-- The optional `tlbia` exists (46_other_named.md R404). -/
  hasTlbia : Bool
  /-- RID_BITS: implemented width of EAR[RID]; 6 and every larger number mean the whole field. -/
  ridBits : Nat
  /-- PVR_VALUE, the content of the read-only PVR (10_state.md R126, D4). -/
  pvr : Word
  /-- DEC_PER_TB: decrements of DEC at each increment of TB (44_timebase_dec.md R351, D6). -/
  decPerTb : Nat
  undefSpr : UndefSprPolicy
  reservedRead : ReservedReadPolicy
  niEffects : NiPolicy
  /-- MSR_IP_RESET: MSR[IP] at power-up (10_state.md R122, D9). -/
  msrIpReset : Bool
  alignment : AlignPolicy
  /-- Fetches under MSR[IR] and data accesses under MSR[DR] modify SRR0 and SRR1
  (10_state.md R152, U14). -/
  srrClobber : Bool
  /-- The physical memory that exists (R177, D18). -/
  memMap : List Region
  absent : AbsentPolicy
deriving DecidableEq, Repr

/-- The bridge exists only on a 64-bit implementation (D2). -/
def Config.bridge (c : Config) : Bool := c.xlen64 && c.hasBridge

/-- The `mtsr` family and `mtmsr`, `rfi` exist on a 32-bit implementation and with the bridge
(30_encoding.md R221). -/
def Config.has32BitForms (c : Config) : Bool := !c.xlen64 || c.hasBridge

/-- The configuration of `State.reset` (log 1, DESIGN CHOICE): a 64-bit implementation with the
bridge and every optional unit but power management, DEC_PER_TB = 1, RID_BITS = 6, MSR_IP_RESET = 1,
every physical address present. -/
def Config.atReset : Config where
  xlen64 := true
  hasBridge := true
  hasFpecr := true
  hasEar := true
  hasDabr := true
  hasPir := true
  hasPow := false
  hasSe := true
  hasBe := true
  hasTlbia := true
  ridBits := 6
  pvr := 0
  decPerTb := 1
  undefSpr := .illegal
  reservedRead := .draw
  niEffects := .refuse
  msrIpReset := true
  alignment := .trap
  srrClobber := true
  memMap := [⟨0, 2 ^ 64⟩]
  absent := .refuse

/-- The smallest machine of D3 on 32 bits, with the policies of D7 and D16 as the spec's own
defaults: the machine of the vectors of 95_test_vectors.md. -/
def Config.minimal32 : Config where
  xlen64 := false
  hasBridge := false
  hasFpecr := false
  hasEar := false
  hasDabr := false
  hasPir := false
  hasPow := false
  hasSe := false
  hasBe := false
  hasTlbia := true
  ridBits := 6
  pvr := 0
  decPerTb := 1
  undefSpr := .refuse
  reservedRead := .draw
  niEffects := .refuse
  msrIpReset := true
  alignment := .refuse
  srrClobber := true
  memMap := [⟨0, 2 ^ 32⟩]
  absent := .refuse

/-! ## The page-table search

The hash, the entry formats and the protection rules are in no file of spec/: the search is the
parameter `translate` of 20_memory.md R181 (b), D19 (log 11). -/

/-- What an access asks of translation. -/
inductive AccessKind where
  | fetch
  | load
  | store
deriving DecidableEq, Repr

/-- The page an access refers to. -/
inductive PageName where
  /-- Through a segment register: its keys Ks and Kp, then VSID and page index, the 52-bit virtual
  address but for the byte offset (20_memory.md R188). -/
  | virtual (ks kp : Bool) (page : BitVec 40)
  /-- Through the segment table: its address, `none` where the bridge's ASR[V] = 0 makes STABORG
  invalid (10_state.md R140, log 49), then the effective address but for the byte offset
  (20_memory.md R191). -/
  | effective (table : Option DWord) (page : BitVec 52)
deriving DecidableEq, Repr

/-- What a search can depend on: the access and its privilege level, the page, SDR1, memory and,
for what lookaside buffers may hold (10_state.md R165), the number of the step. -/
structure PageQuery where
  kind : AccessKind
  user : Bool
  page : PageName
  sdr1 : DWord
  mem : List (Nat × Byte)
  step : Nat
deriving DecidableEq, Repr

/-- Why a translation fails (60_exceptions.md R447, R448). -/
inductive PageFault where
  | noPage      -- translation not found
  | noSegment   -- the segment table search failed
  | protection
  | noExecute   -- a fetch from a no-execute segment or a guarded page
  | directStore -- a direct-store segment, whose accesses use no page (20_memory.md R189)
deriving DecidableEq, Repr

/-- How a search ends. -/
inductive PageResult where
  /-- The page is at this number of 4-Kbyte pages (20_memory.md R188); `marks` are the bytes with
  which the hardware updates the referenced and changed bits (20_memory.md R193). -/
  | found (frame : BitVec 52) (marks : List (Nat × Byte))
  | fault (f : PageFault)
deriving DecidableEq, Repr, Inhabited

/-- What a search answers: the bytes it refers to, by offset in the segment table and by address in
the page table, which the platform may not have (20_memory.md R177), and how it ends. -/
structure PageAnswer where
  segmentRefs : List (BitVec 12)
  tableRefs : List Nat
  result : PageResult
deriving DecidableEq, Repr, Inhabited

/-! ## Free values

Each is an uninterpreted function of the number of the step (State's `draws`), the page-table search
of its query: nothing can be proved of its values, so a claim holds for every value (R15, log 6). -/

/-- The undefined parts of a GPR result: upper half of a word multiply or divide, a quotient that
does not fit, rD of `lswx` with count 0 (41_cr_xer.md R281 to R288, 46_other_named.md R391, U27, U28). -/
opaque Config.freeResult : Nat → DWord
/-- The undefined CR0 bits 0-2 (10_state.md R45, U2). -/
opaque Config.freeCr0 : Nat → BitVec 3
/-- What reserved bits read after a 1 was written (10_state.md R32, U1): one word for each read
of a step. -/
opaque Config.freeReserved : Nat → ReservedReader → DWord
/-- FPRF after an arithmetic instruction with an undefined result (10_state.md R68, U3). -/
opaque Config.freeFprf : Nat → BitVec 5
/-- The high-order word of the FPR that `mffs` writes (42_fpscr.md R306, U29). -/
opaque Config.freeFprHigh : Nat → Word
/-- DSISR after an alignment exception (60_exceptions.md R447). -/
opaque Config.freeDsisr : Nat → Word
/-- The SRR1 information bits of a machine check, "implementation-specific" (60_exceptions.md R448). -/
opaque Config.freeMachineCheckInfo : Nat → Word
/-- SRR0 after a fetch under MSR[IR] = 1 (10_state.md R152, U14). -/
opaque Config.freeFetchSrr0 : Nat → DWord
/-- SRR1 after a fetch under MSR[IR] = 1 (10_state.md R152, U14). -/
opaque Config.freeFetchSrr1 : Nat → DWord
/-- SRR0 after a data access under MSR[DR] = 1 (10_state.md R152, U14). -/
opaque Config.freeAccessSrr0 : Nat → DWord
/-- SRR1 after a data access under MSR[DR] = 1 (10_state.md R152, U14). -/
opaque Config.freeAccessSrr1 : Nat → DWord
/-- The external device's answer to `eciwx` when no reply is queued (46_other_named.md R396, U35). -/
opaque Config.freeReply : Nat → Word
/-- The page-table search (20_memory.md R181, D19, log 11). -/
opaque Config.freePageSearch : PageQuery → PageAnswer
/-- The ticks before a boundary for which no input is queued: TB_TICK (44_timebase_dec.md R347, D5). -/
opaque Config.freeTicks : Nat → Nat

end Sys2Proof
end

