-- ==== Sys2Proof/Machine/State.lean ====
section
/-! DEFINITION. The state of the machine as plain data, the reasons a step can stop, and the state
after reset (spec 10_state.md R30; INVENTORY.md lists every field with its rule). -/

namespace Sys2Proof.Machine

/-- The causes of a program exception (60_exceptions.md R435). -/
inductive ProgramCause where
  | illegal
  | privileged
  | trap
  | fpEnabled
deriving DecidableEq, Repr

/-- The exceptions of R432, each taken through the one entry procedure R445. -/
inductive Exc where
  | systemReset
  | machineCheck
  | dsi
  | isi
  | externalInterrupt
  | alignment
  | program (cause : ProgramCause)
  | fpUnavailable
  | decrementer
  | systemCall
  | trace
deriving DecidableEq, Repr

/-- A reset request is a soft one, the system reset exception, or a hard one, power-up (R440). -/
inductive ResetKind where
  | soft
  | hard
deriving DecidableEq, Repr

/-- What the environment does at one instruction boundary (R440, R441, 44_timebase_dec.md R347). -/
structure Input where
  /-- How often the time base ticks before this boundary. -/
  ticks : Nat
  /-- The level of the external interrupt input. -/
  extInt : Bool
  /-- A machine check is requested. -/
  mcRequest : Bool
  /-- A reset is requested. -/
  reset : Option ResetKind
deriving DecidableEq, Repr

/-- One transmission to the external device: the resource ID, the physical address, and the word
that `ecowx` sends (none for `eciwx`) (46_other_named.md R396, R397). -/
structure ExtMessage where
  rid : BitVec 6
  addr : DWord
  word : Option Word
deriving DecidableEq, Repr

/-- The reasons the machine stops for good. -/
inductive Fault where
  /-- Raised by the step in the checkstop state when no input is queued that could leave it
  (R454). Safe: the machine executes nothing there. -/
  | checkstop
deriving DecidableEq, Repr

/-- The reasons a step has no meaning. Each is safe: the model says nothing where the machine may
go on. -/
inductive Refusal where
  /-- Raised by an arm of `exec` whose instruction has no meaning yet. -/
  | notModelled (mnemonic : String)
  /-- Raised by the step: the fetched word is no row of the opcode table (30_encoding.md R223). -/
  | undescribedWord
  /-- Raised by the step while MSR[LE] = 1 (20_memory.md R172, D15). -/
  | littleEndian
  /-- Raised by the step while an implemented MSR[POW] is 1 (10_state.md R108, U9). -/
  | powerManagement
  /-- Raised by a compare with L = 1 on a 32-bit implementation (46_other_named.md R413), by
  `bcctr` with BO{2} = 0 (43_branch.md R326) and by an invalid form of `lswx` (R391). -/
  | invalidForm
  /-- Raised by `mtspr`, `mfspr`, `mftb` under the policy "undefined" (40_spr_access.md R256). -/
  | undefinedSpr
  /-- Raised by a misaligned access under the policy "undefined" (20_memory.md R174, D16). -/
  | misaligned
  /-- Raised by `mtspr` to SDR1 under translation (70_reset_and_hazards.md R494). -/
  | sdr1WhileTranslating
  /-- Raised by `mtspr` that writes W or G of a lower IBAT (10_state.md R130, U11). -/
  | ibatWG
  /-- Raised by a translation that meets a valid BAT pair with a BL outside Table 2-12 or with low
  bits of BEPI or BRPN that BL forbids (10_state.md R131, U12). -/
  | batMalformed
  /-- Raised by a translation that two BAT pairs match (20_memory.md R183, U12). -/
  | batConflict
  /-- Raised by a page-table search with a malformed SDR1 (10_state.md R136, R137, U13). -/
  | sdr1Malformed
  /-- Raised by a search of a segment table in the first three pages (10_state.md R139, U22). -/
  | segmentTableReserved
  /-- Raised by a load or store through a segment with T = 1 (20_memory.md R189, D19). -/
  | directStore
  /-- Raised by floating-point arithmetic with FPSCR[NI] = 1 under the policy "refuse"
  (10_state.md R81, D10, U6). -/
  | nonIeeeMode
  /-- Raised by an access outside the platform's physical memory (20_memory.md R177, D18). -/
  | absentMemory
  /-- Raised by the fetch of a byte stored to since the last context synchronizing event
  (20_memory.md R202, D21). -/
  | staleInstruction
deriving DecidableEq, Repr

/-- The state. An XLEN-wide register is held in 64 bits; on a 32-bit implementation its
high-order half is 0 (log 2). -/
structure State where
  /-- The implementation's parameters; no step changes them (00_scope.md R5). -/
  cfg : Config
  /-- GPR0 to GPR31 (R34). -/
  gpr : Vector DWord 32
  /-- FPR0 to FPR31 (R36). -/
  fpr : Vector DWord 32
  /-- The condition register (R42). -/
  cr : Word
  /-- FPSCR as last written; FEX and VX are computed when it is read (R50, R54, R55). -/
  fpscr : Word
  /-- The integer exception register (R85). -/
  xer : Word
  /-- The link register (R91). -/
  lr : DWord
  /-- The count register (R94). -/
  ctr : DWord
  /-- The upper half of the time base (R97). -/
  tbu : Word
  /-- The lower half of the time base (R97). -/
  tbl : Word
  /-- The machine state register as last written (R104). -/
  msr : DWord
  /-- IBAT0U to IBAT3U (R128). -/
  ibatU : Vector DWord 4
  /-- IBAT0L to IBAT3L (R128). -/
  ibatL : Vector DWord 4
  /-- DBAT0U to DBAT3U (R128). -/
  dbatU : Vector DWord 4
  /-- DBAT0L to DBAT3L (R128). -/
  dbatL : Vector DWord 4
  /-- The page table base (R135). -/
  sdr1 : DWord
  /-- The address space register, 64-bit implementations only (R139). -/
  asr : DWord
  /-- SR0 to SR15, or the bridge's images of them (R142, D26). -/
  sr : Vector Word 16
  /-- The data address register (R146). -/
  dar : DWord
  /-- SPRG0 to SPRG3 (R148). -/
  sprg : Vector DWord 4
  /-- The cause of a DSI or alignment exception (R149). -/
  dsisr : Word
  /-- Save/restore register 0: the saved instruction address (R150). -/
  srr0 : DWord
  /-- Save/restore register 1: the saved MSR (R153). -/
  srr1 : DWord
  /-- The optional floating-point exception cause register (R156). -/
  fpecr : Word
  /-- The decrementer (R157). -/
  dec : Word
  /-- The optional data address breakpoint register (R159). -/
  dabr : DWord
  /-- The optional external access register (R161). -/
  ear : Word
  /-- The optional processor identification register (R163). -/
  pir : Word
  /-- The pending decrementer exception request (R164). -/
  decRequest : Bool
  /-- The address of the next instruction (R166). -/
  pc : DWord
  /-- Physical memory (20_memory.md R170): addresses strictly rising, no zero byte listed; an
  unlisted address reads 0 (log 5). -/
  mem : List Host.Cell
  /-- The terminal state Checkstop (60_exceptions.md R454). -/
  checkstop : Bool
  /-- The model's own: physical addresses stored to since the last context synchronizing event
  (20_memory.md R202, log 14). -/
  storedSinceSync : List Nat
  /-- The model's own: what the environment does at the coming boundaries, next first (log 8). -/
  inputs : List Input
  /-- The model's own: the words the external device will answer `eciwx` with (log 13). -/
  extReplies : List Word
  /-- The model's own: what was sent to the external device, latest last (log 13). -/
  extSent : List ExtMessage
  /-- The model's own: the exception this step has taken (log 33). -/
  lastExc : Option Exc
  /-- The model's own: the number of the current step, the index of the free values (log 6). -/
  draws : Nat
deriving DecidableEq, Repr

/-- MSR at power-up (Table 2-10, R122): SF = 1 and ISF = 1 where they exist, IP = MSR_IP_RESET,
every other defined bit 0; the reserved bits are 0 by choice (log 4). -/
def State.resetMsr (c : Config) : DWord :=
  (if c.xlen64 then 0x8000000000000000#64 else 0) |||
    (if c.bridge then 0x2000000000000000#64 else 0) |||
    (if c.msrIpReset then 0x40#64 else 0)

/-- The first instruction address: the system reset vector 0x00100 under MSR[IP]
(70_reset_and_hazards.md R481, R117). -/
def State.resetPc (c : Config) : DWord :=
  if c.msrIpReset then
    if c.xlen64 then 0xFFFFFFFFFFF00100#64 else 0x00000000FFF00100#64
  else 0x100#64

/-- The state after power-up of the implementation `c` (R122, R481, R482, D12, D13). -/
def State.resetOf (c : Config) : State where
  cfg := c
  gpr := Vector.replicate 32 0
  fpr := Vector.replicate 32 0
  cr := 0
  fpscr := 0
  xer := 0
  lr := 0
  ctr := 0
  tbu := 0
  tbl := 0
  msr := State.resetMsr c
  ibatU := Vector.replicate 4 0
  ibatL := Vector.replicate 4 0
  dbatU := Vector.replicate 4 0
  dbatL := Vector.replicate 4 0
  sdr1 := 0
  asr := 0
  sr := Vector.replicate 16 0
  dar := 0
  sprg := Vector.replicate 4 0
  dsisr := 0
  srr0 := 0
  srr1 := 0
  fpecr := 0
  dec := 0
  dabr := 0
  ear := 0
  pir := 0
  decRequest := false
  pc := State.resetPc c
  mem := []
  checkstop := false
  storedSinceSync := []
  inputs := []
  extReplies := []
  extSent := []
  lastExc := none
  draws := 0

/-- The machine right after power-up, in the configuration `Config.atReset`. -/
def State.reset : State := State.resetOf Config.atReset

/-- What a step or an instruction answers. -/
abbrev Result := Host.Outcome State Fault Refusal

end Sys2Proof.Machine
end

