-- ==== Sys2Proof/Machine/Bits.lean ====
section
/-! DEFINITION. Bit positions, masks and the slicing helpers every operation uses (spec 00_scope.md
R9 to R11, 10_state.md R32 and the register layouts). Positions are LSB-0. -/

namespace Sys2Proof.Machine

/-! ## Words and double words -/

/-- The low-order word. -/
def lo32 (v : DWord) : Word := v.setWidth 32

/-- The high-order word. -/
def hi32 (v : DWord) : Word := v.extractLsb' 32 32

/-- A word with 32 high-order zeros. -/
def zext (w : Word) : DWord := w.setWidth 64

/-- Two words as a double word, the high-order one first. -/
def joinWords (h l : Word) : DWord := h ++ l

/-- A double word with its high-order half cleared. -/
def low (v : DWord) : DWord := v &&& 0xFFFFFFFF#64

/-- A double word with its two low-order bits cleared: an instruction address (R92, R150). -/
def wordAligned (v : DWord) : DWord := v &&& ~~~3#64

/-- Bit `b` of a 32-bit register in source numbering, 0 leftmost (R9). -/
def srcBit (w : Word) (b : RegNum) : Bool := w.getLsbD (31 - b.toNat)

/-- A 32-bit register with bit `b` of the source numbering set to `v`. -/
def setSrcBit (w : Word) (b : RegNum) (v : Bool) : Word :=
  let m : Word := 1#32 <<< (31 - b.toNat)
  if v then w ||| m else w &&& ~~~m

/-- Four-bit field `n` of a 32-bit register, field 0 leftmost (R42). -/
def field4 (w : Word) (n : FieldNum) : BitVec 4 := w.extractLsb' (28 - 4 * n.toNat) 4

/-- The mask of four-bit field `n`. -/
def fieldMask (n : FieldNum) : Word := 0xF#32 <<< (28 - 4 * n.toNat)

/-- A 32-bit register with four-bit field `n` replaced. -/
def setField4 (w : Word) (n : FieldNum) (v : BitVec 4) : Word :=
  (w &&& ~~~fieldMask n) ||| (v.setWidth 32 <<< (28 - 4 * n.toNat))

/-- The mask of the fields an eight-bit field mask selects; its leftmost bit selects field 0
(30_encoding.md R212: CRM and FM). -/
def fieldsMask (m : BitVec 8) : Word :=
  (List.range 8).foldl
    (fun acc k => if m.getLsbD (7 - k) then acc ||| (0xF#32 <<< (28 - 4 * k)) else acc) 0

/-- Merges `v` into `old` under a mask. -/
def mergeBits {n : Nat} (mask old v : BitVec n) : BitVec n := (old &&& ~~~mask) ||| (v &&& mask)

/-! ## MSR bits (10_state.md R104) -/

def msrSF : Nat := 63
def msrISF : Nat := 61
def msrPOW : Nat := 18
def msrILE : Nat := 16
def msrEE : Nat := 15
def msrPR : Nat := 14
def msrFP : Nat := 13
def msrME : Nat := 12
def msrFE0 : Nat := 11
def msrSE : Nat := 10
def msrBE : Nat := 9
def msrFE1 : Nat := 8
def msrIP : Nat := 6
def msrIR : Nat := 5
def msrDR : Nat := 4
def msrRI : Nat := 1
def msrLE : Nat := 0

/-- The mask that holds bit `b` alone when the condition holds. -/
def bitIf (c : Bool) (b : Nat) : DWord := if c then 1#64 <<< b else 0

/-- The MSR bits that are defined on the implementation: Table 2-8, an optional bit only where its
function exists (R32, R104). -/
def msrDefined (c : Config) : DWord :=
  0x1F973#64 ||| bitIf c.hasPow msrPOW ||| bitIf c.hasSe msrSE ||| bitIf c.hasBe msrBE |||
    bitIf c.xlen64 msrSF ||| bitIf c.bridge msrISF

/-- The SRR1 bits that carry exception-specific information: INFO_MASK (R154). -/
def infoMask : DWord := 0x783F0000#64

/-- The SRR1 bits that carry MSR bits: SAVE_MASK for XLEN = 64; its low half is the one for
XLEN = 32 (R154). -/
def saveMask : DWord := 0xFFFFFFFF87C0FFFF#64

/-! ## Reserved bits of the other registers (R32) -/

/-- XER bits 3-24 of the source (R85). -/
def xerReserved : DWord := 0x1FFFFF80#64
/-- FPSCR bit 20 of the source (R72). -/
def fpscrReserved : DWord := 0x800#64
/-- SDR1 (R136, R137). -/
def sdr1Reserved (c : Config) : DWord := if c.xlen64 then 0x3FFE0#64 else 0xFE00#64
/-- ASR; bit V is defined with the bridge (R139, R140, log 34). -/
def asrReserved (c : Config) : DWord := if c.bridge then 0xFFE#64 else 0xFFF#64
/-- Upper BAT registers (R129). -/
def batUReserved : DWord := 0x1E000#64
/-- Lower BAT registers (R130). -/
def batLReserved : DWord := 0x1FF84#64
/-- W and G of a lower BAT register, not defined for an IBAT (R130). -/
def batWG : DWord := 0x48#64
/-- SRR0 (R150). -/
def srr0Reserved : DWord := 3#64
/-- A segment register of a 32-bit implementation with T = 0; with T = 1 every bit is defined (R143,
R144). The bridge's images have no reserved bit: a read gives what was written
(45_msr_sr_system.md R374, D26). -/
def srReserved (c : Config) (w : Word) : DWord :=
  if c.xlen64 || w.getLsbD 31 then 0 else 0x0F000000#64
/-- EAR, with the RID bits beyond the implemented width (R161). -/
def earReserved (c : Config) : DWord :=
  0x7FFFFFC0#64 ||| (0x3F#64 &&& ~~~((1#64 <<< (min c.ridBits 6)) - 1#64))

/-! ## Fields of the BAT, segment, SDR1, PVR and EAR registers -/

/-- BEPI of an upper BAT register (R129). -/
def batBEPI (u : DWord) : DWord := u >>> 17
/-- BL of an upper BAT register (R129). -/
def batBL (u : DWord) : DWord := (u >>> 2) &&& 0x7FF#64
/-- Vs of an upper BAT register (R129). -/
def batVs (u : DWord) : Bool := u.getLsbD 1
/-- Vp of an upper BAT register (R129). -/
def batVp (u : DWord) : Bool := u.getLsbD 0
/-- BRPN of a lower BAT register (R130). -/
def batBRPN (l : DWord) : DWord := l >>> 17
/-- WIMG of a lower BAT register; stored, with no effect here (R130, 20_memory.md R178). -/
def batWIMG (l : DWord) : BitVec 4 := l.extractLsb' 3 4
/-- PP of a lower BAT register (R130). -/
def batPP (l : DWord) : BitVec 2 := l.extractLsb' 0 2

/-- BL is one of the twelve masks of Table 2-12: its 1 bits are its low-order ones (R131). -/
def batBLValid (bl : DWord) : Bool := bl &&& (bl + 1#64) == 0
/-- The length in bytes of the area that a valid BL names (R131). -/
def batLength (bl : DWord) : Nat := 2 ^ 17 * (bl.toNat + 1)

/-- T of a segment register (R142). -/
def srT (w : Word) : Bool := w.getLsbD 31
/-- Ks of a segment register (R143, R144). -/
def srKs (w : Word) : Bool := w.getLsbD 30
/-- Kp of a segment register (R143, R144). -/
def srKp (w : Word) : Bool := w.getLsbD 29
/-- N of a segment register with T = 0 (R143). -/
def srN (w : Word) : Bool := w.getLsbD 28
/-- VSID of a segment register with T = 0 (R143). -/
def srVSID (w : Word) : BitVec 24 := w.extractLsb' 0 24
/-- BUID of a segment register with T = 1 (R144). -/
def srBUID (w : Word) : BitVec 9 := w.extractLsb' 20 9
/-- CNTLR_SPEC of a segment register with T = 1 (R144). -/
def srCntlrSpec (w : Word) : BitVec 20 := w.extractLsb' 0 20

/-- HTABORG of a 64-bit SDR1 (R136). -/
def sdr1HtabOrg64 (v : DWord) : BitVec 46 := v.extractLsb' 18 46
/-- HTABSIZE of a 64-bit SDR1 (R136). -/
def sdr1HtabSize (v : DWord) : BitVec 5 := v.extractLsb' 0 5
/-- HTABORG of a 32-bit SDR1 (R137). -/
def sdr1HtabOrg32 (v : DWord) : BitVec 16 := v.extractLsb' 16 16
/-- HTABMASK of a 32-bit SDR1 (R137). -/
def sdr1HtabMask (v : DWord) : BitVec 9 := v.extractLsb' 0 9

/-- The size in bytes of the page table SDR1 describes: 2^(18+k) with k = HTABSIZE (R136), or
2^16 for each of the HTABMASK + 1 multiples a mask of k ones gives (R137). -/
def sdr1TableBytes (c : Config) (v : DWord) : Nat :=
  if c.xlen64 then 2 ^ (18 + (sdr1HtabSize v).toNat) else 2 ^ 16 * ((sdr1HtabMask v).toNat + 1)

/-- SDR1 is well formed: HTABSIZE at most 28 or HTABMASK of the form 0...01...1, and HTABORG a
multiple of the table's size (R136, R137). -/
def sdr1WellFormed (c : Config) (v : DWord) : Bool :=
  if c.xlen64 then
    decide ((sdr1HtabSize v).toNat ≤ 28) &&
      decide ((sdr1HtabOrg64 v).toNat % 2 ^ (sdr1HtabSize v).toNat = 0)
  else
    (sdr1HtabMask v &&& (sdr1HtabMask v + 1#9) == 0#9) &&
      decide ((sdr1HtabOrg32 v).toNat % ((sdr1HtabMask v).toNat + 1) = 0)

/-- The physical address of the page table: HTABORG followed by zeros (R136, R137, 20_memory.md
R190). -/
def sdr1TableBase (c : Config) (v : DWord) : DWord :=
  if c.xlen64 then v &&& ~~~0x3FFFF#64 else v &&& 0xFFFF0000#64

/-- The mask that selects the bits of the hash used in the index beyond the least number: HTABSIZE
ones, or HTABMASK itself (R136, R137, 20_memory.md R190). -/
def sdr1HashMask (c : Config) (v : DWord) : DWord :=
  if c.xlen64 then BitVec.ofNat 64 (2 ^ (sdr1HtabSize v).toNat - 1)
  else (sdr1HtabMask v).setWidth 64

/-- How many bits of the hash index the smallest page table (20_memory.md R190). -/
def ptegIndexBits (c : Config) : Nat := if c.xlen64 then 11 else 10

/-- A PTEG is 128 bytes, 64 on a 32-bit implementation: 2 to this power (20_memory.md R190). -/
def ptegShift (c : Config) : Nat := if c.xlen64 then 7 else 6

/-- The index of the PTEG a hash selects: the least number of its low-order bits, and above them
the bits the mask selects (20_memory.md R190). -/
def ptegIndex (c : Config) (v hash : DWord) : DWord :=
  hash &&& ((sdr1HashMask c v <<< ptegIndexBits c) ||| ((1#64 <<< ptegIndexBits c) - 1#64))

/-- The physical address of the PTEG a hash selects: index times PTEG size, its high-order bits
merged into the low-order ones of HTABORG (20_memory.md R190). The hash function itself is in no
file of spec/. -/
def ptegAddress (c : Config) (v hash : DWord) : DWord :=
  sdr1TableBase c v ||| (ptegIndex c v hash <<< ptegShift c)

/-- The physical address of the segment table: STABORG with twelve zeros (R139). -/
def asrTable (v : DWord) : DWord := v &&& ~~~0xFFF#64
/-- ASR[V]; "assumed to be set" where it is not implemented (R140). -/
def asrV (c : Config) (v : DWord) : Bool := !c.bridge || v.getLsbD 0
/-- The segment table may not lie in the first three pages (R139). -/
def asrTableAllowed (v : DWord) : Bool := decide (0x2000 < (asrTable v).toNat)

/-- Version of PVR (R126). -/
def pvrVersion (w : Word) : BitVec 16 := w.extractLsb' 16 16
/-- Revision of PVR (R126). -/
def pvrRevision (w : Word) : BitVec 16 := w.extractLsb' 0 16

/-- EAR[E] (R161). -/
def earE (w : Word) : Bool := w.getLsbD 31
/-- EAR[RID], of which the implementation has the low-order RID_BITS bits (R161). -/
def earRID (c : Config) (w : Word) : BitVec 6 :=
  (w &&& ~~~lo32 (earReserved c)).extractLsb' 0 6

/-- DABR[BT] (R159). -/
def dabrBT (v : DWord) : Bool := v.getLsbD 2
/-- DABR[DW] (R159). -/
def dabrDW (v : DWord) : Bool := v.getLsbD 1
/-- DABR[DR] (R159). -/
def dabrDR (v : DWord) : Bool := v.getLsbD 0

/-! ## TBR numbers (44_timebase_dec.md R341) -/

/-- TBR 268: TBL, or the whole time base on a 64-bit implementation. -/
def tbrTBL : BitVec 10 := 268
/-- TBR 269: TBU. -/
def tbrTBU : BitVec 10 := 269

end Sys2Proof.Machine
end

