-- ==== Sys2Proof/Machine/Memory.lean ====
section
/-! DEFINITION. Physical memory as a canonical list of cells (spec 20_memory.md R170, R172, R177).

Addresses rise strictly and no listed byte is 0; an address that is not listed reads as 0, the
byte of memory nothing has written (log 5). -/

namespace Sys2Proof.Machine

/-- What a byte of memory that nothing has written reads as: DESIGN CHOICE 0 (log 5, unsafe). -/
def Memory.unlisted : Byte := 0

/-- The byte at a physical address. -/
def Memory.read : List Host.Cell → Nat → Byte
  | [], _ => Memory.unlisted
  | (k, v) :: rest, a => if k = a then v else Memory.read rest a

/-- Memory after one byte is stored. -/
def Memory.write : List Host.Cell → Nat → Byte → List Host.Cell
  | [], a, v => if v = Memory.unlisted then [] else [(a, v)]
  | (k, w) :: rest, a, v =>
    if a < k then
      if v = Memory.unlisted then (k, w) :: rest else (a, v) :: (k, w) :: rest
    else if a = k then
      if v = Memory.unlisted then rest else (a, v) :: rest
    else (k, w) :: Memory.write rest a v

/-- Every listed address is above `lo`, addresses rise, no listed byte is the unlisted one. -/
def Memory.wfAbove (lo : Nat) : List Host.Cell → Bool
  | [] => true
  | (k, v) :: rest => decide (lo ≤ k) && decide (v ≠ Memory.unlisted) && Memory.wfAbove (k + 1) rest

/-- The canonical form. -/
def Memory.wf (m : List Host.Cell) : Bool := Memory.wfAbove 0 m

/-- Stores a list of bytes at a list of addresses, in order. -/
def Memory.writeAll : List Host.Cell → List DWord → List Byte → List Host.Cell
  | m, a :: as, v :: vs => Memory.writeAll (Memory.write m a.toNat v) as vs
  | m, _, _ => m

/-- The bytes at a list of addresses. -/
def Memory.readAll (m : List Host.Cell) (as : List DWord) : List Byte :=
  as.map fun a => Memory.read m a.toNat

/-- The address lies in physical memory that exists (R177, D18). -/
def present (c : Config) (a : DWord) : Bool :=
  c.memMap.any fun r => decide (r.base ≤ a.toNat) && decide (a.toNat < r.base + r.size)

end Sys2Proof.Machine
end

