-- ==== Sys2Proof/Machine/Ops.lean ====
section
/-! DEFINITION. The named operations on the state: registers, the mode, reserved-bit reads, taking
an exception and returning from one (spec 10_state.md, 60_exceptions.md R445 to R450). -/

namespace Sys2Proof.Machine

/-! ## Modes and addresses -/

/-- One bit of the MSR. -/
def State.msrBit (s : State) (b : Nat) : Bool := s.msr.getLsbD b

/-- 64-bit mode: XLEN = 64 and MSR[SF] = 1 (00_scope.md R6). -/
def State.mode64 (s : State) : Bool := s.cfg.xlen64 && s.msrBit msrSF

/-- User level: MSR[PR] = 1 (10_state.md R112). -/
def State.user (s : State) : Bool := s.msrBit msrPR

/-- A value as an XLEN-wide register holds it (log 2). -/
def xlenOf (c : Config) (v : DWord) : DWord := if c.xlen64 then v else low v

/-- A value as an XLEN-wide register of this machine holds it. -/
def State.x (s : State) (v : DWord) : DWord := xlenOf s.cfg v

/-- An effective or instruction address: its high-order half is 0 in 32-bit mode (R166, R170). -/
def State.ea (s : State) (v : DWord) : DWord := if s.mode64 then v else low v

/-- The address of the instruction after the one at `pc`; it wraps at the top of the address space
of the mode (R166). -/
def State.nextPc (s : State) : DWord := s.ea (s.pc + 4#64)

/-- The state after an instruction that is no branch and raises no exception: pc + 4 (R166). -/
def State.advance (s : State) : State := { s with pc := s.nextPc }

/-! ## General registers (R34, R36) -/

/-- GPR `r`. -/
def State.getGpr (s : State) (r : RegNum) : DWord := s.gpr[r.toNat]'r.isLt

/-- GPR `r` written with an XLEN-wide value. -/
def State.setGpr (s : State) (r : RegNum) (v : DWord) : State :=
  { s with gpr := s.gpr.set r.toNat (s.x v) r.isLt }

/-- FPR `r`. -/
def State.getFpr (s : State) (r : RegNum) : DWord := s.fpr[r.toNat]'r.isLt

/-- FPR `r` written with 64 bits. -/
def State.setFpr (s : State) (r : RegNum) (v : DWord) : State :=
  { s with fpr := s.fpr.set r.toNat v r.isLt }

/-- The base operand `rA|0`: register number 0 means the constant 0 (R35). -/
def State.base (s : State) (r : RegNum) : DWord := if r = 0 then 0 else s.getGpr r

/-- Segment register `i`. -/
def State.getSr (s : State) (i : BitVec 4) : Word := s.sr[i.toNat]'i.isLt

/-- Segment register `i` written. -/
def State.setSr (s : State) (i : BitVec 4) (w : Word) : State :=
  { s with sr := s.sr.set i.toNat w i.isLt }

/-- The segment register an address selects: bits [31:28] (20_memory.md R187, 45_msr_sr_system.md R371). -/
def srSelect (v : DWord) : BitVec 4 := v.extractLsb' 28 4

/-- The time base as one 64-bit number (R97). -/
def State.timeBase (s : State) : DWord := joinWords s.tbu s.tbl

/-! ## Reads of registers with reserved bits (R32) -/

/-- What a read of the value `v` gives where the bits of `mask` are reserved: a reserved bit last
written as 0 reads 0; one last written as 1 reads as RESERVED_READ says (log 7). -/
def State.view (s : State) (who : ReservedReader) (mask v : DWord) : DWord :=
  if v &&& mask = 0 then v
  else
    match s.cfg.reservedRead with
    | .draw => v &&& (~~~mask ||| Config.freeReserved s.draws who)
    | .asWritten => v
    | .zero => v &&& ~~~mask

/-- MSR as a read gives it. -/
def State.msrView (s : State) (who : ReservedReader) : DWord :=
  s.x (s.view who (~~~msrDefined s.cfg) s.msr)

/-! ## Taking an exception (60_exceptions.md R445) -/

/-- The vector offsets (R431). -/
def Exc.offset : Exc → DWord
  | .systemReset => 0x100
  | .machineCheck => 0x200
  | .dsi => 0x300
  | .isi => 0x400
  | .externalInterrupt => 0x500
  | .alignment => 0x600
  | .program _ => 0x700
  | .fpUnavailable => 0x800
  | .decrementer => 0x900
  | .systemCall => 0xC00
  | .trace => 0xD00

/-- The SRR1 information bits of a program exception whose SRR0 addresses the causing instruction
(R448). -/
def ProgramCause.info : ProgramCause → DWord
  | .illegal => 0x00080000
  | .privileged => 0x00040000
  | .trap => 0x00020000
  | .fpEnabled => 0x00100000

/-- The vector address of an offset: the prefix is ones or zeros by MSR[IP] (R117, R431, log 21). -/
def State.vector (s : State) (off : DWord) : DWord :=
  if s.msrBit msrIP then s.x (0xFFFFFFFFFFF00000#64 ||| off) else off

/-- MSR after entry: `msr_after_entry` of R449. ILE and IP stay, LE becomes ILE, SF becomes ISF
with the bridge and 1 without it, ME stays but for a machine check, every other bit is 0. -/
def msrAfterEntry (c : Config) (m : DWord) (e : Exc) : DWord :=
  let kept : DWord := if e = .machineCheck then 0x10040#64 else 0x11040#64
  let sf : DWord :=
    if c.bridge then bitIf (m.getLsbD msrISF) msrSF ||| bitIf (m.getLsbD msrISF) msrISF
    else bitIf c.xlen64 msrSF
  (m &&& kept) ||| bitIf (m.getLsbD msrILE) msrLE ||| sf

/-- pc after entry: the vector, its high-order half 0 where the entry leaves 32-bit mode (R166, log
21). -/
def State.entryPc (s : State) (e : Exc) : DWord :=
  State.ea { s with msr := s.x (msrAfterEntry s.cfg s.msr e) } (s.vector e.offset)

/-- SRR1 at entry: MSR under SAVE_MASK, the exception's information under INFO_MASK (R448). -/
def State.savedMsr (s : State) (info : DWord) : DWord :=
  (s.msrView .exceptionEntry &&& saveMask) ||| (info &&& infoMask)

/-- The exception is context synchronizing: any but a nonrecoverable system reset or machine check,
one with MSR[RI] = 0 (R453, 70_reset_and_hazards.md R487). -/
def State.excSynchronizes (s : State) : Exc → Bool
  | .systemReset => s.msrBit msrRI
  | .machineCheck => s.msrBit msrRI
  | .dsi => true
  | .isi => true
  | .externalInterrupt => true
  | .alignment => true
  | .program _ => true
  | .fpUnavailable => true
  | .decrementer => true
  | .systemCall => true
  | .trace => true

/-- Takes exception `e` with the given SRR0 and information bits: the one entry procedure (R445),
but for DAR and DSISR, which `takeDsi` and `takeAlignment` write. Where it is context synchronizing
no store can have been missed by a prefetch any more (R202, R453). -/
def State.take (s : State) (e : Exc) (srr0 info : DWord) : State :=
  { s with
    srr0 := wordAligned (s.ea srr0)
    srr1 := s.x (s.savedMsr info)
    msr := s.x (msrAfterEntry s.cfg s.msr e)
    decRequest := if e = .decrementer then false else s.decRequest
    pc := s.entryPc e
    storedSinceSync := if s.excSynchronizes e then [] else s.storedSinceSync
    lastExc := some e }

/-- A program exception at the current instruction (R435, R446, R448). -/
def State.takeProgram (s : State) (c : ProgramCause) : State := s.take (.program c) s.pc c.info

/-- A DSI at the current instruction: DAR receives the effective address, its high-order half 0 in
32-bit mode, and DSISR the cause (R447). -/
def State.takeDsi (s : State) (ea : DWord) (cause : Word) : State :=
  { s.take .dsi s.pc 0 with dar := s.ea ea, dsisr := cause }

/-- An alignment exception at the current instruction; DSISR is a free value (R447). -/
def State.takeAlignment (s : State) (ea : DWord) : State :=
  { s.take .alignment s.pc 0 with dar := s.ea ea, dsisr := Config.freeDsisr s.draws }

/-- A machine check whose SRR0 is the current `pc`: taken with MSR[ME] = 1, else the checkstop
state (R454). -/
def State.takeMachineCheck (s : State) : State :=
  if s.msrBit msrME then
    s.take .machineCheck s.pc (zext (Config.freeMachineCheckInfo s.draws))
  else { s with checkstop := true }

/-! ## Outcomes and guards of an instruction -/

/-- The instruction does not exist on this implementation, or its number is undefined (R435 a). -/
def State.illegal (s : State) : Result := .next (s.takeProgram .illegal)

/-- A supervisor-level instruction at user level (R435 b, R461). -/
def State.privileged (s : State) : Result := .next (s.takeProgram .privileged)

/-- The instruction runs where it exists; elsewhere it is illegal (30_encoding.md R221). The test
comes before every other (R435). -/
def State.ifExists (s : State) (there : Bool) (k : Result) : Result :=
  if there then k else s.illegal

/-- The instruction runs at supervisor level; at user level it is privileged (R461). -/
def State.ifSupervisor (s : State) (k : Result) : Result :=
  if s.user then s.privileged else k

/-- The instruction runs with MSR[FP] = 1; else floating point is unavailable (R436). -/
def State.ifFp (s : State) (k : Result) : Result :=
  if s.msrBit msrFP then k else .next (s.take .fpUnavailable s.pc 0)

/-! ## Return from an exception (R450, 45_msr_sr_system.md R365 to R368) -/

/-- MSR after `rfid`: restored from SRR1 under SAVE_MASK (R154, R366). -/
def State.msrFromSrr1 (s : State) : DWord := mergeBits saveMask s.msr s.srr1

/-- MSR after `rfi`: the low-order 32 bits restored, the high-order ones kept (R365). -/
def State.msrFromSrr1Low (s : State) : DWord := mergeBits (low saveMask) s.msr s.srr1

/-- The state after a return that restores MSR to `m`: the next instruction address is SRR0 with
its two low-order bits 0, and its high-order half 0 in the restored 32-bit mode (R368). A return
is context synchronizing (70_reset_and_hazards.md R487). -/
def State.returnTo (s : State) (m : DWord) : State :=
  let t := { s with msr := s.x m, storedSinceSync := [] }
  { t with pc := t.ea (wordAligned s.srr0) }

end Sys2Proof.Machine
end

