-- ==== Sys2Proof/Machine/Access.lean ====
section
/-! DEFINITION. Address translation and memory access: the BAT arrays, the data access with its
alignment, breakpoint and translation tests, and the instruction fetch (spec 20_memory.md). -/

namespace Sys2Proof.Machine

/-! ## Block address translation (R182 to R185) -/

/-- What translating one effective address gives. -/
inductive Walk where
  /-- The physical address, and the updates of referenced and changed bits that go with it. -/
  | phys (pa : DWord) (marks : List Host.Cell)
  | fault (f : PageFault)
  /-- The search refers to memory the platform does not have. -/
  | absent
  | refused (r : Refusal)
deriving DecidableEq, Repr

/-- The pair is valid for the current privilege level (R185). -/
def State.batValid (s : State) (u : DWord) : Bool := if s.user then batVp u else batVs u

/-- The pair keeps the rules of R131: a BL of Table 2-12, BEPI and BRPN zero where BL is one. -/
def batWellFormed (u l : DWord) : Bool :=
  batBLValid (batBL u) && (batBEPI u &&& batBL u == 0) && (batBRPN l &&& batBL u == 0)

/-- The effective address matches BEPI in the bits BL leaves (R183). -/
def batAddrMatch (u ea : DWord) : Bool := ea >>> 17 &&& ~~~batBL u == batBEPI u

/-- The physical address a matching pair gives (R184). -/
def batPhysical (u l ea : DWord) : DWord :=
  ((batBRPN l ||| (ea >>> 17 &&& batBL u)) <<< 17) ||| (ea &&& 0x1FFFF#64)

/-- A load or fetch may use a block with PP 01, 10 or 11, a store one with PP 10 (R185). -/
def ppAllows (kind : AccessKind) (pp : BitVec 2) : Bool :=
  if kind = .store then pp == 0b10#2 else pp != 0b00#2

/-- The pairs of one array, upper and lower. -/
def batPairs (us ls : Vector DWord 4) : List (DWord × DWord) :=
  [(us[0], ls[0]), (us[1], ls[1]), (us[2], ls[2]), (us[3], ls[3])]

/-! ## Segments and pages (R187 to R193) -/

/-- The segment registers take part in translation: on a 32-bit implementation, and on the bridge
while ASR[V] and MSR[SF] are both 0, when its 16 SLB entries are used as a 32-bit implementation
uses them (R191, 10_state.md R140). -/
def State.segmentRegisters (s : State) : Bool :=
  !s.cfg.xlen64 || (!asrV s.cfg s.asr && !s.msrBit msrSF)

/-- The 52-bit virtual address in a memory segment: VSID, page index, byte offset (R188). -/
def virtualAddress (w : Word) (ea : DWord) : BitVec 52 :=
  srVSID w ++ (ea.extractLsb' 12 16 ++ ea.extractLsb' 0 12)

/-- The physical address in a page of 4 Kbytes: its number, then the byte offset (R188). -/
def pagePhysical (frame : BitVec 52) (ea : DWord) : DWord := frame ++ ea.extractLsb' 0 12

/-- The address is in the page table SDR1 describes (R190). -/
def State.inPageTable (s : State) (a : Nat) : Bool :=
  decide ((sdr1TableBase s.cfg s.sdr1).toNat ≤ a) &&
    decide (a < (sdr1TableBase s.cfg s.sdr1).toNat + sdr1TableBytes s.cfg s.sdr1)

/-- The bytes a search ends by marking: those in the page table (R193). -/
def State.pageMarks (s : State) : PageResult → List Host.Cell
  | .found _ marks => marks.filter fun c => s.inPageTable c.1
  | .fault _ => []

/-- The bytes of the segment table a search refers to: none without a valid table (10_state.md
R140). -/
def segmentRefs (page : PageName) (a : PageAnswer) : List DWord :=
  match page with
  | .effective (some table) _ => a.segmentRefs.map fun o => table + o.setWidth 64
  | .effective none _ => []
  | .virtual _ _ _ => []

/-- The physical addresses a search refers to: in the segment table, and in the page table what it
reads and marks (R177). -/
def State.searchRefs (s : State) (page : PageName) (a : PageAnswer) : List DWord :=
  segmentRefs page a ++
    (a.tableRefs.filter s.inPageTable ++ (s.pageMarks a.result).map (·.1)).map (BitVec.ofNat 64)

/-- A fault as the access reports it: only a segment table search can fail as one or meet a
direct-store segment, and only a fetch meets no-execute (60_exceptions.md R447, R448). -/
def faultSeen (kind : AccessKind) (registers : Bool) : PageFault → PageFault
  | .noPage => .noPage
  | .noSegment => if registers then .noPage else .noSegment
  | .protection => .protection
  | .noExecute => if kind = .fetch then .noExecute else .protection
  | .directStore => if registers then .noPage else .directStore

/-- Searches the page table: the page found and the address's offset in it, or the fault; a search
that refers to memory the platform does not have ends there (R177). A search with a malformed SDR1
has no meaning (U13). -/
def State.pageWalk (s : State) (kind : AccessKind) (page : PageName) (ea : DWord) : Walk :=
  if sdr1WellFormed s.cfg s.sdr1 then
    let a := Config.freePageSearch ⟨kind, s.user, page, s.sdr1, s.mem, s.draws⟩
    if (s.searchRefs page a).all (present s.cfg) then
      match a.result with
      | .found frame _ => .phys (s.x (pagePhysical frame ea)) (s.pageMarks a.result)
      | .fault f => .fault (faultSeen kind s.segmentRegisters f)
    else .absent
  else .refused .sdr1Malformed

/-- What follows when no BAT pair matches. Where the segment registers take part: a direct-store
segment has no page (R189), a fetch from a no-execute one fails (60_exceptions.md R456), and else
the page table is searched for the virtual address (R188). Elsewhere the search starts in the
segment table (R191), which cannot be in the first three pages (U22). DESIGN CHOICE (log 49): on the
bridge with ASR[V] = 0 and MSR[SF] = 1, of which the spec says nothing, STABORG is invalid and the
search, whose answer is free, has no segment table to refer to. -/
def State.segmentWalk (s : State) (kind : AccessKind) (ea : DWord) : Walk :=
  if s.segmentRegisters then
    let w := s.getSr (srSelect ea)
    if srT w then .fault .directStore
    else if srN w && kind == .fetch then .fault .noExecute
    else
      s.pageWalk kind (.virtual (srKs w) (srKp w) ((virtualAddress w ea).extractLsb' 12 40)) ea
  else if !asrV s.cfg s.asr then s.pageWalk kind (.effective none (ea.extractLsb' 12 52)) ea
  else if asrTableAllowed s.asr then
    s.pageWalk kind (.effective (some (asrTable s.asr)) (ea.extractLsb' 12 52)) ea
  else .refused .segmentTableReserved

/-- Translates through one BAT array, and through segments and pages where it does not match. A
valid pair that breaks R131 and an address that two pairs match have no meaning (U12). -/
def State.walk (s : State) (us ls : Vector DWord 4) (kind : AccessKind) (ea : DWord) : Walk :=
  let valid := (batPairs us ls).filter fun p => s.batValid p.1
  if valid.any fun p => !batWellFormed p.1 p.2 then .refused .batMalformed
  else
    match valid.filter fun p => batAddrMatch p.1 ea with
    | [] => s.segmentWalk kind ea
    | [p] =>
      if ppAllows kind (batPP p.2) then .phys (s.x (batPhysical p.1 p.2 ea)) []
      else .fault .protection
    | _ => .refused .batConflict

/-- The physical address of a data access: the effective address with MSR[DR] = 0 (R180), else
through the DBATs (R182). -/
def State.dataWalk (s : State) (store : Bool) (ea : DWord) : Walk :=
  if s.msrBit msrDR then s.walk s.dbatU s.dbatL (if store then .store else .load) ea
  else .phys ea []

/-- The physical address of an instruction fetch: the same with MSR[IR] and the IBATs. -/
def State.fetchWalk (s : State) (ea : DWord) : Walk :=
  if s.msrBit msrIR then s.walk s.ibatU s.ibatL .fetch ea else .phys ea []

/-- The hardware's updates of referenced and changed bits, made with the access (R193, R199, log
46). -/
def State.markPages (s : State) (marks : List Host.Cell) : State :=
  { s with mem := marks.foldl (fun m c => Memory.write m c.1 c.2) s.mem }

/-! ## Data accesses -/

/-- What the tests of a data access find. -/
inductive Access where
  /-- Every byte may be accessed; their physical addresses, and what the hardware marks. -/
  | ready (pas : List DWord) (marks : List Host.Cell)
  /-- A DSI: the address DAR receives and the DSISR cause bits. -/
  | dsi (dar : DWord) (cause : Word)
  | alignment (dar : DWord)
  /-- Some byte, or what its translation refers to, is not in the platform's memory. -/
  | absent
  | refused (r : Refusal)
deriving DecidableEq, Repr

/-- The effective addresses of `n` bytes from `ea`, wrapping at the top of the mode's address
space. -/
def State.byteEas (s : State) (ea : DWord) (n : Nat) : List DWord :=
  (List.range n).map fun j => s.ea (ea + BitVec.ofNat 64 j)

/-- DSISR of a breakpoint match (R447). -/
def dsisrBreakpoint (store : Bool) : Word := if store then 0x02400000 else 0x00400000
/-- DSISR of a translation that fails (R447). A data access does not meet no-execute; of those to a
direct-store segment, only `eciwx` and `ecowx` fail (R433). -/
def faultDsisr (store : Bool) : PageFault → Word
  | .noPage => if store then 0x42000000 else 0x40000000
  | .noSegment => if store then 0x02200000 else 0x00200000
  | .protection => if store then 0x0A000000 else 0x08000000
  | .noExecute => if store then 0x0A000000 else 0x08000000
  | .directStore => if store then 0x06000000 else 0x04000000
/-- DSISR of `eciwx` or `ecowx` with EAR[E] = 0 (R447). -/
def dsisrExternal (store : Bool) : Word := if store then 0x02100000 else 0x00100000

/-- The byte's effective address is in the double word the breakpoint designates (R196). -/
def dabrHits (dabr ea : DWord) : Bool := ea >>> 3 == dabr >>> 3

/-- A data address breakpoint match on any byte (R196). -/
def State.dabrMatch (s : State) (store : Bool) (eas : List DWord) : Bool :=
  s.cfg.hasDabr && (s.msrBit msrDR == dabrBT s.dabr) &&
    (if store then dabrDW s.dabr else dabrDR s.dabr) && eas.any (dabrHits s.dabr)

/-- The end of an access at a byte whose translation fails. A load or store in a direct-store segment
goes to a controller whose protocol is absent: it has no meaning (R189, D19). An external control
access is of a class not allowed there (60_exceptions.md R433, R447, log 48). -/
def failedAccess (external store : Bool) (ea : DWord) (f : PageFault) : Access :=
  if f = .directStore ∧ external = false then .refused .directStore
  else .dsi ea (faultDsisr store f)

/-- Translates the bytes in order; the first that fails decides (R447). -/
def State.translateBytes (s : State) (external store : Bool) : List DWord → Access
  | [] => .ready [] []
  | ea :: rest =>
    match s.dataWalk store ea with
    | .phys pa marks =>
      match s.translateBytes external store rest with
      | .ready pas more => .ready (pa :: pas) (marks ++ more)
      | a => a
    | .fault f => failedAccess external store ea f
    | .absent => .absent
    | .refused r => .refused r

/-- Byte order, breakpoint and translation of an access of `n` bytes, before any byte is
transferred (D20): the breakpoint (R196), then translation (R180). Little-endian mode has no
meaning (R172). -/
def State.translateAccess (s : State) (external store : Bool) (ea : DWord) (n : Nat) : Access :=
  if s.msrBit msrLE then .refused .littleEndian
  else if s.dabrMatch store (s.byteEas ea n) then .dsi ea (dsisrBreakpoint store)
  else s.translateBytes external store (s.byteEas ea n)

/-- The tests of a byte-by-byte access to memory: those of its translation, then whether the
platform has every byte (R177). -/
def State.accessBytes (s : State) (store : Bool) (ea : DWord) (n : Nat) : Access :=
  match s.translateAccess false store ea n with
  | .ready pas marks => if pas.all (present s.cfg) then .ready pas marks else .absent
  | a => a

/-- The access is at a multiple of 4. -/
def aligned4 (ea : DWord) : Bool := ea &&& 3#64 == 0

/-- The tests of a word access: alignment first (R174, R434, R451), then those of its bytes. -/
def State.accessWord (s : State) (store : Bool) (ea : DWord) : Access :=
  if aligned4 ea || s.cfg.alignment == .perform then s.accessBytes store ea 4
  else
    match s.cfg.alignment with
    | .trap => .alignment ea
    | _ => .refused .misaligned

/-- The tests of an external control access. Memory is not read or written, so the platform's
memory plays no part; at an address that is no multiple of 4 every implementation that does not
leave it undefined raises the alignment exception (R197, R434, log 39). -/
def State.accessExternal (s : State) (store : Bool) (ea : DWord) : Access :=
  if aligned4 ea then s.translateAccess true store ea 4
  else
    match s.cfg.alignment with
    | .refuse => .refused .misaligned
    | _ => .alignment ea

/-- SRR0 and SRR1 after an access or fetch under translation: free values where the implementation
modifies them (R152, U14). -/
def State.clobber (s : State) (v0 v1 : DWord) : State :=
  if s.cfg.srrClobber then { s with srr0 := s.x v0, srr1 := s.x v1 } else s

/-- The state a data access leaves SRR0 and SRR1 in (R152). -/
def State.clobberData (s : State) : State :=
  if s.msrBit msrDR then
    s.clobber (Config.freeAccessSrr0 s.draws) (Config.freeAccessSrr1 s.draws)
  else s

/-- A reference to memory the platform does not have (R177, D18). -/
def State.absentMemory (s : State) : Result :=
  match s.cfg.absent with
  | .machineCheck => .next s.takeMachineCheck
  | .refuse => .refused .absentMemory

/-- What an instruction does with an access: its own effect when every test passes, the page table
marked, the exception otherwise. -/
def State.onAccess (s : State) (a : Access) (k : List DWord → State → Result) : Result :=
  match a with
  | .ready pas marks => k pas (s.markPages marks).clobberData
  | .dsi dar cause => .next (s.takeDsi dar cause)
  | .alignment dar => .next (s.takeAlignment dar)
  | .absent => s.absentMemory
  | .refused r => .refused r

/-- The word at four physical addresses, big-endian (R172). -/
def State.readWord (s : State) (pas : List DWord) : Word :=
  match Memory.readAll s.mem pas with
  | [b0, b1, b2, b3] => bytesWord b0 b1 b2 b3
  | _ => 0

/-- Stores bytes at physical addresses and records the addresses (R202, log 14). -/
def State.storeBytes (s : State) (pas : List DWord) (bytes : List Byte) : State :=
  { s with
    mem := Memory.writeAll s.mem pas bytes
    storedSinceSync := pas.map BitVec.toNat ++ s.storedSinceSync }

/-! ## Instruction fetch (R202, 30_encoding.md R210) -/

/-- What fetching at `pc` gives. -/
inductive Fetched where
  | word (w : Word)
  /-- The fetch is not allowed: the SRR1 information bits (R448, R456). -/
  | isi (info : DWord)
  | absent
  | refused (r : Refusal)
deriving DecidableEq, Repr

/-- The four physical addresses of the word at `pa`. -/
def State.wordAddrs (s : State) (pa : DWord) : List DWord :=
  [s.x pa, s.x (pa + 1#64), s.x (pa + 2#64), s.x (pa + 3#64)]

/-- The SRR1 information bits of an ISI (R448). -/
def faultInfo : PageFault → DWord
  | .noPage => 0x40000000
  | .noSegment => 0x00200000
  | .protection => 0x08000000
  | .noExecute => 0x10000000
  | .directStore => 0x10000000

/-- Fetches the word at `pc` from memory as it is now; a byte stored to since the last context
synchronizing event may have been prefetched, so such a fetch has no meaning (R202, D21). -/
def State.fetch (s : State) : Fetched :=
  match s.fetchWalk (s.ea s.pc) with
  | .phys pa _ =>
    let pas := s.wordAddrs pa
    if !pas.all (present s.cfg) then .absent
    else if pas.any fun a => s.storedSinceSync.contains a.toNat then .refused .staleInstruction
    else .word (s.readWord pas)
  | .fault f => .isi (faultInfo f)
  | .absent => .absent
  | .refused r => .refused r

/-- What the hardware marks with the fetch at pc (R193). -/
def State.fetchMarks (s : State) : List Host.Cell :=
  match s.fetchWalk (s.ea s.pc) with
  | .phys _ marks => marks
  | .fault _ => []
  | .absent => []
  | .refused _ => []

/-- The state an instruction fetch leaves the page table, SRR0 and SRR1 in (R152, R193). -/
def State.clobberFetch (s : State) : State :=
  if s.msrBit msrIR then
    (s.markPages s.fetchMarks).clobber (Config.freeFetchSrr0 s.draws)
      (Config.freeFetchSrr1 s.draws)
  else s

end Sys2Proof.Machine
end

