-- ==== Sys2Proof/Machine/Boundary.lean ====
section
/-! DEFINITION. The instruction boundary: the environment's input, the time base ticker, the
asynchronous exceptions and the trace (spec 44_timebase_dec.md R347 to R354, 60_exceptions.md R440
to R444, R451, R454, R455). -/

namespace Sys2Proof.Machine

/-! ## The time base ticker -/

/-- One decrement of DEC: a change of its bit 0 from 0 to 1 signals a request (R351, R352). -/
def State.decStep (s : State) : State :=
  let d := s.dec - 1#32
  { s with
    dec := d
    decRequest := s.decRequest || (!s.dec.getLsbD 31 && d.getLsbD 31) }

/-- `n` decrements of DEC. -/
def State.decSteps : Nat → State → State
  | 0, s => s
  | n + 1, s => State.decSteps n s.decStep

/-- One tick: TB + 1 modulo 2^64, then the decrements that go with it (R347, D6). -/
def State.tick (s : State) : State :=
  let tb := s.timeBase + 1#64
  State.decSteps s.cfg.decPerTb { s with tbu := hi32 tb, tbl := lo32 tb }

/-- `n` ticks, one after another. -/
def State.ticks : Nat → State → State
  | 0, s => s
  | n + 1, s => State.ticks n s.tick

/-- `n` ticks at once: what `State.ticks` gives, computed in one stroke. DEC passes through zero
when more decrements happen than DEC counts (R352). -/
def State.applyTicks (s : State) (n : Nat) : State :=
  let tb := s.timeBase + BitVec.ofNat 64 n
  let d := n * s.cfg.decPerTb
  { s with
    tbu := hi32 tb
    tbl := lo32 tb
    dec := s.dec - BitVec.ofNat 32 d
    decRequest := s.decRequest || decide (s.dec.toNat < d) }

/-! ## The environment -/

/-- The input of the coming boundary. With none queued nothing is requested and the number of
ticks is a free value (R347, D5, log 8). -/
def State.nextInput (s : State) : Input :=
  match s.inputs with
  | [] => { ticks := Config.freeTicks s.draws, extInt := false, mcRequest := false, reset := none }
  | i :: _ => i

/-- The state at the boundary: the ticks have happened, the input is consumed, the step has its
number and no exception is taken yet. -/
def State.atBoundary (s : State) : State :=
  { s.applyTicks s.nextInput.ticks with
    inputs := s.inputs.tail
    draws := s.draws + 1
    lastExc := none }

/-- A hard reset: the power-up state, with memory and the environment as they are (R455, R480,
R482, R484, log 24). It is nonrecoverable, so not context synchronizing (R453). -/
def State.hardReset (s : State) : State :=
  { State.resetOf s.cfg with
    mem := s.mem
    storedSinceSync := s.storedSinceSync
    inputs := s.inputs
    extReplies := s.extReplies
    extSent := s.extSent
    draws := s.draws }

/-- A soft reset: an exception entry whose SRR0 is the next instruction; it leaves the checkstop
state (R454, R455). -/
def State.softReset (s : State) : State :=
  { s.take .systemReset s.pc 0 with checkstop := false }

/-! ## Trace (R444) -/

/-- How an instruction counts for the trace. -/
inductive TraceKind where
  | plain
  /-- b, bc, bclr or bcctr: traced by MSR[BE] too. -/
  | branch
  /-- rfi or rfid: not traced. -/
  | ret
deriving DecidableEq, Repr

/-- The kind of each instruction. -/
def traceKind : Instr → TraceKind
  | .twi _ _ _ => .plain
  | .cmpli _ _ _ _ => .plain
  | .cmpi _ _ _ _ => .plain
  | .addicDot _ _ _ => .plain
  | .addi _ _ _ => .plain
  | .bc _ _ _ _ _ => .branch
  | .sc => .plain
  | .b _ _ _ => .branch
  | .mcrf _ _ => .plain
  | .bclr _ _ _ => .branch
  | .rfid => .ret
  | .crnor _ _ _ => .plain
  | .rfi => .ret
  | .crandc _ _ _ => .plain
  | .crxor _ _ _ => .plain
  | .crnand _ _ _ => .plain
  | .crand _ _ _ => .plain
  | .creqv _ _ _ => .plain
  | .crorc _ _ _ => .plain
  | .cror _ _ _ => .plain
  | .bcctr _ _ _ => .branch
  | .andiDot _ _ _ => .plain
  | .andisDot _ _ _ => .plain
  | .cmp _ _ _ _ => .plain
  | .tw _ _ _ => .plain
  | .subfc _ _ _ _ _ => .plain
  | .mulhwu _ _ _ _ => .plain
  | .mfcr _ => .plain
  | .cmpl _ _ _ _ => .plain
  | .mulhw _ _ _ _ => .plain
  | .mfmsr _ => .plain
  | .mtcrf _ _ => .plain
  | .mtmsr _ => .plain
  | .mtmsrd _ => .plain
  | .mtsr _ _ => .plain
  | .mulld _ _ _ _ _ => .plain
  | .mullw _ _ _ _ _ => .plain
  | .mtsrin _ _ => .plain
  | .tlbie _ => .plain
  | .eciwx _ _ _ => .plain
  | .mfspr _ _ => .plain
  | .tlbia => .plain
  | .mftb _ _ => .plain
  | .slbie _ => .plain
  | .ecowx _ _ _ => .plain
  | .divdu _ _ _ _ _ => .plain
  | .divwu _ _ _ _ _ => .plain
  | .mtspr _ _ => .plain
  | .divd _ _ _ _ _ => .plain
  | .divw _ _ _ _ _ => .plain
  | .slbia => .plain
  | .mcrxr _ => .plain
  | .lswx _ _ _ => .plain
  | .mfsr _ _ => .plain
  | .sync => .plain
  | .mfsrin _ _ => .plain
  | .stswx _ _ _ => .plain
  | .lwz _ _ _ => .plain
  | .mtfsb1 _ _ => .plain
  | .mcrfs _ _ => .plain
  | .mtfsb0 _ _ => .plain
  | .mtfsfi _ _ _ => .plain
  | .mffs _ _ => .plain
  | .mtfsf _ _ _ => .plain

/-- The instruction is traced: single-step by MSR[SE], a branch also by MSR[BE], both as they were
when it started; an implementation without a function has no such bit. -/
def State.traced (start : State) (i : Instr) : Bool :=
  match traceKind i with
  | .plain => start.cfg.hasSe && start.msrBit msrSE
  | .branch =>
    (start.cfg.hasSe && start.msrBit msrSE) || (start.cfg.hasBe && start.msrBit msrBE)
  | .ret => false

/-- What follows an instruction's own effect: the trace exception, unless the instruction took
another one or stopped the processor. SRR0 is the address of the next instruction. -/
def State.afterInstr (start : State) (i : Instr) (r : Result) : Result :=
  match r with
  | .next u =>
    if start.traced i && u.lastExc.isNone && !u.checkstop then .next (u.take .trace u.pc 0)
    else .next u
  | .fault e => .fault e
  | .refused e => .refused e

end Sys2Proof.Machine
end

