-- ==== Sys2Proof/Machine/Operands.lean ====
section
/-! DEFINITION. The operand forms: immediates, displacements, effective addresses, compare and
trap operands, the string instructions' bytes and registers (spec 30_encoding.md R213,
46_other_named.md). -/

namespace Sys2Proof.Machine

/-! ## Immediates and displacements (R213) -/

/-- SIMM or d, sign-extended. -/
def simmVal (i : BitVec 16) : DWord := i.signExtend 64

/-- UIMM, zero-extended. -/
def uimmVal (i : BitVec 16) : DWord := i.setWidth 64

/-- UIMM of `andis.`: sixteen zeros to its right. -/
def uimmShifted (i : BitVec 16) : DWord := i.setWidth 64 <<< 16

/-- LI with two zeros to its right, sign-extended. -/
def dispI (li : BitVec 24) : DWord := (li ++ 0#2).signExtend 64

/-- BD with two zeros to its right, sign-extended. -/
def dispB (bd : BitVec 14) : DWord := (bd ++ 0#2).signExtend 64

/-! ## Effective addresses -/

/-- `d(rA)`: (rA|0) + d (R417). -/
def State.eaDisp (s : State) (ra : RegNum) (d : BitVec 16) : DWord := s.ea (s.base ra + simmVal d)

/-- `rA,rB`: (rA|0) + GPR[rB] (R391, R396). -/
def State.eaIndexed (s : State) (ra rb : RegNum) : DWord := s.ea (s.base ra + s.getGpr rb)

/-- A branch displacement's target: relative to the branch, or absolute with AA = 1 (43_branch.md
R323, R324), masked as R329 says. -/
def State.branchTarget (s : State) (disp : DWord) (aa : Bool) : DWord :=
  s.ea (wordAligned (if aa then disp else s.pc + disp))

/-- The target a register gives: its two low-order bits 0 (R92, R325, R326). -/
def State.registerTarget (s : State) (v : DWord) : DWord := s.ea (wordAligned v)

/-! ## Word operands -/

/-- The low-order word of a GPR. -/
def State.gprWord (s : State) (r : RegNum) : Word := lo32 (s.getGpr r)

/-- A signed compare operand: the low-order word with L = 0, the register with L = 1 (R413). -/
def signedOperand (l : Bool) (v : DWord) : Int := if l then v.toInt else (lo32 v).toInt

/-- An unsigned compare operand (R415). -/
def unsignedOperand (l : Bool) (v : DWord) : Nat := if l then v.toNat else (lo32 v).toNat

/-- The condition a trap tests: TO's bits left to right are signed less, signed greater, equal,
unsigned less, unsigned greater (R406). -/
def trapCondition (cond : BitVec 5) (a b : Word) : Bool :=
  (cond.getLsbD 4 && decide (a.toInt < b.toInt)) ||
    (cond.getLsbD 3 && decide (b.toInt < a.toInt)) ||
    (cond.getLsbD 2 && a == b) ||
    (cond.getLsbD 1 && decide (a.toNat < b.toNat)) ||
    (cond.getLsbD 0 && decide (b.toNat < a.toNat))

/-! ## Strings (R89, R391, R392) -/

/-- XER{25..31}, the byte count. -/
def State.byteCount (s : State) : Nat := (s.xer.extractLsb' 0 7).toNat

/-- How many registers a string of `n` bytes takes. -/
def stringRegCount (n : Nat) : Nat := (n + 3) / 4

/-- The registers a string of `n` bytes takes from register `r` on, wrapping from 31 to 0. -/
def stringRegs (r : RegNum) (n : Nat) : List RegNum :=
  (List.range (stringRegCount n)).map fun k => r + BitVec.ofNat 5 k

/-- The form of `lswx` is invalid: rD is rA or rB, or an address register is loaded (R391, U16,
log 20). -/
def lswxInvalid (rd ra rb : RegNum) (n : Nat) : Bool :=
  rd == ra || rd == rb || (ra != 0 && (stringRegs rd n).contains ra) || (stringRegs rd n).contains rb

/-- Byte `k` of a word, 0 the most significant. -/
def wordByte (w : Word) (k : Nat) : Byte := w.extractLsb' (24 - 8 * k) 8

/-- The `n` bytes `stswx` stores, from register `r` on. -/
def State.stringBytes (s : State) (r : RegNum) (n : Nat) : List Byte :=
  (List.range n).map fun k => wordByte (s.gprWord (r + BitVec.ofNat 5 (k / 4))) (k % 4)

/-- A string of bytes loaded from register `r` on: four to a register's low-order word from its
most significant byte, the last register's rest 0, high-order halves 0 (R391). -/
def State.loadString : State → RegNum → List Byte → State
  | s, r, b0 :: b1 :: b2 :: b3 :: rest =>
    State.loadString (s.setGpr r (zext (bytesWord b0 b1 b2 b3))) (r + 1#5) rest
  | s, r, [b0, b1, b2] => s.setGpr r (zext (bytesWord b0 b1 b2 0))
  | s, r, [b0, b1] => s.setGpr r (zext (bytesWord b0 b1 0 0))
  | s, r, [b0] => s.setGpr r (zext (bytesWord b0 0 0 0))
  | s, _, [] => s

/-! ## Branch conditions (30_encoding.md R216, 43_branch.md R321) -/

/-- BO{k}, k counted from the left. -/
def boBit (bo : BitVec 5) (k : Nat) : Bool := bo.getLsbD (4 - k)

/-- CTR after the branch: decremented over its full width when BO{2} = 0 (R95, R328). -/
def State.branchCtr (s : State) (bo : BitVec 5) : DWord :=
  if boBit bo 2 then s.ctr else s.x (s.ctr - 1#64)

/-- The value a CTR test looks at: the whole decremented CTR, its low-order word in 32-bit mode
(R328). -/
def State.ctrTestValue (s : State) (bo : BitVec 5) : DWord := s.ea (s.branchCtr bo)

/-- `ctr_ok` (R321). -/
def State.ctrOk (s : State) (bo : BitVec 5) : Bool :=
  boBit bo 2 || (s.ctrTestValue bo != 0 ^^ boBit bo 3)

/-- `cond_ok` (R321, R322). -/
def State.condOk (s : State) (bo bi : BitVec 5) : Bool :=
  boBit bo 0 || srcBit s.cr bi == boBit bo 1

/-- `taken` (R321). -/
def State.branchTaken (s : State) (bo bi : BitVec 5) : Bool := s.ctrOk bo && s.condOk bo bi

end Sys2Proof.Machine
end

