-- ==== Sys2Proof/Machine/Branch.lean ====
section
/-! DEFINITION. The branches (spec 43_branch.md R320 to R332). -/

namespace Sys2Proof.Machine

/-- A branch's end: CTR, LR with LK = 1 whether or not the branch is taken, and pc (R321, R324,
R327). -/
def State.branchEnd (s : State) (ctr : DWord) (lk taken : Bool) (target : DWord) : State :=
  { s with
    ctr := ctr
    lr := if lk then s.nextPc else s.lr
    pc := if taken then target else s.nextPc }

/-- `b` (R323). -/
def execB (li : BitVec 24) (aa lk : Bool) (s : State) : Result :=
  .next (s.branchEnd s.ctr lk true (s.branchTarget (dispI li) aa))

/-- `bc` (R324). -/
def execBc (bo bi : BitVec 5) (bd : BitVec 14) (aa lk : Bool) (s : State) : Result :=
  .next (s.branchEnd (s.branchCtr bo) lk (s.branchTaken bo bi) (s.branchTarget (dispB bd) aa))

/-- `bclr` (R325): LR is read as the target before it is written. -/
def execBclr (bo bi : BitVec 5) (lk : Bool) (s : State) : Result :=
  .next (s.branchEnd (s.branchCtr bo) lk (s.branchTaken bo bi) (s.registerTarget s.lr))

/-- `bcctr` (R326): a BO that asks for a decrement is an invalid form (U15, log 36). -/
def execBcctr (bo bi : BitVec 5) (lk : Bool) (s : State) : Result :=
  if boBit bo 2 then
    .next (s.branchEnd s.ctr lk (s.condOk bo bi) (s.registerTarget s.ctr))
  else .refused .invalidForm

end Sys2Proof.Machine
end

