-- ==== Sys2Proof/Machine/Flags.lean ====
section
/-! DEFINITION. The flag computations: XER, CR0 and compare fields, FPSCR (spec 10_state.md R42 to
R89, 41_cr_xer.md R276 to R294, 42_fpscr.md R300 to R310). -/

namespace Sys2Proof.Machine

/-! ## Carry and overflow (R291 to R294) -/

/-- The operation width W: 64 in 64-bit mode, 32 otherwise (R294). -/
def State.opWidth (s : State) : Nat := if s.mode64 then 64 else 32

/-- The carry out of the msb of the W-bit sum of three values (R291). -/
def carryOut (w : Nat) (a b : DWord) (c : Nat) : Bool :=
  decide (2 ^ w ≤ a.toNat % 2 ^ w + b.toNat % 2 ^ w + c)

/-- The carry out of the bit below the msb (R291). -/
def carryInMsb (w : Nat) (a b : DWord) (c : Nat) : Bool := carryOut (w - 1) a b c

/-- Add and subtract overflow: the two carries differ (R87, R291). -/
def ovAdd (w : Nat) (a b : DWord) (c : Nat) : Bool := carryOut w a b c ^^ carryInMsb w a b c

/-- The carry of a shift right algebraic by `n` of a W-bit operand: any 1 bit shifted out of a
negative operand (R88, R292). -/
def sraCarry (w : Nat) (v : DWord) (n : Nat) : Bool :=
  v.getLsbD (w - 1) && (if w ≤ n then true else decide (v.toNat % 2 ^ n ≠ 0))

/-! ## XER (R85 to R89) -/

/-- XER[SO]. -/
def State.so (s : State) : Bool := s.xer.getLsbD 31
/-- XER[OV]. -/
def State.ov (s : State) : Bool := s.xer.getLsbD 30
/-- XER[CA]. -/
def State.ca (s : State) : Bool := s.xer.getLsbD 29

/-- A word with bit `b` (LSB-0) replaced. -/
def putBit (w : Word) (b : Nat) (v : Bool) : Word :=
  if v then w ||| 1#32 <<< b else w &&& ~~~(1#32 <<< b)

/-- XER[CA] written. -/
def State.setCa (s : State) (v : Bool) : State := { s with xer := putBit s.xer 29 v }

/-- The OE rule: with OE = 1, OV takes the overflow condition and SO accumulates it; with OE = 0
both stay (R290). -/
def State.setOverflow (s : State) (oe ov : Bool) : State :=
  if oe then { s with xer := putBit (putBit s.xer 30 ov) 31 (s.so || ov) } else s

/-! ## CR fields (R42 to R47) -/

/-- CR field `n` written. -/
def State.setCrField (s : State) (n : FieldNum) (v : BitVec 4) : State :=
  { s with cr := setField4 s.cr n v }

/-- Four condition bits, left to right. -/
def crBits (b0 b1 b2 b3 : Bool) : BitVec 4 :=
  BitVec.ofNat 4 (b0.toNat * 8 + b1.toNat * 4 + b2.toNat * 2 + b3.toNat)

/-- CR0 of a result: the signed comparison of its low-order W bits with 0, then SO (R44). -/
def cr0Value (w : Nat) (r : DWord) (so : Bool) : BitVec 4 :=
  crBits (r.getLsbD (w - 1)) (!r.getLsbD (w - 1) && decide (r.toNat % 2 ^ w ≠ 0))
    (decide (r.toNat % 2 ^ w = 0)) so

/-- CR0 set from a result (R44, R276). -/
def State.recordCr0 (s : State) (r : DWord) : State :=
  s.setCrField 0 (cr0Value s.opWidth r s.so)

/-- CR0 set where the result is undefined: bits 0-2 are a free value, bit 3 is SO (R45). -/
def State.recordCr0Undefined (s : State) : State :=
  s.setCrField 0 (Config.freeCr0 s.draws ++ BitVec.ofBool s.so)

/-- The record form of an integer instruction: CR0 with Rc = 1, nothing with Rc = 0 (R276). -/
def State.recordForm (s : State) (rc undef : Bool) (r : DWord) : State :=
  if rc then (if undef then s.recordCr0Undefined else s.recordCr0 r) else s

/-- The field an integer compare writes: less, greater, equal, SO (R47). -/
def compareField (lt gt so : Bool) : BitVec 4 := crBits lt gt (!lt && !gt) so

/-- The field of a signed compare (R413). -/
def signedCompare (a b : Int) (so : Bool) : BitVec 4 :=
  compareField (decide (a < b)) (decide (b < a)) so

/-- The field of an unsigned compare (R415). -/
def unsignedCompare (a b : Nat) (so : Bool) : BitVec 4 :=
  compareField (decide (a < b)) (decide (b < a)) so

/-! ## The result of an integer instruction -/

/-- The end of an arithmetic instruction: rD, then XER[OV] and XER[SO] with OE = 1, then CR0 with
Rc = 1, whose bit 3 is the new SO (R276, R290). -/
def State.arith (s : State) (rd : RegNum) (r : DWord) (oe ov rc undef : Bool) : State :=
  (((s.setGpr rd r).setOverflow oe ov).recordForm rc undef (s.x r)).advance

/-- A 32-bit result in a register whose upper half is undefined on a 64-bit implementation
(R281, U27): the upper half is a free value. A 32-bit register has no upper half. -/
def State.wordResult (s : State) (w : Word) : DWord :=
  joinWords (if s.cfg.xlen64 then hi32 (Config.freeResult s.draws) else 0) w

/-! ## FPSCR (R50 to R84) -/

/-- The exception bits EXC: OX to VXVC and VXSOFT, VXSQRT, VXCVI (R52). -/
def fpscrExc : Word := 0x1FF80700
/-- The exception bits an arithmetic instruction can raise: all but VXSOFT, which the moves to FPSCR
alone alter (R73). -/
def fpscrRaisable : Word := fpscrExc &&& ~~~0x00000400
/-- The exception bits a compare can raise: VXSNAN and VXVC (R309). -/
def fpscrCompareExc : Word := 0x01080000
/-- The invalid operation exceptions VX sums up (R55). -/
def fpscrInvalid : Word := 0x01F80700
/-- FX (R53). -/
def fpscrFX : Word := 0x80000000
/-- FEX and VX, never written from data (R54, R55, R300). -/
def fpscrComputed : Word := 0x60000000

/-- VX: the OR of the invalid operation exceptions (R55). -/
def fpscrVX (f : Word) : Bool := f &&& fpscrInvalid != 0

/-- FEX: the OR of the exception bits masked by their enables (R54). -/
def fpscrFEX (f : Word) : Bool :=
  (fpscrVX f && f.getLsbD 7) || (f.getLsbD 28 && f.getLsbD 6) || (f.getLsbD 27 && f.getLsbD 5) ||
    (f.getLsbD 26 && f.getLsbD 4) || (f.getLsbD 25 && f.getLsbD 3)

/-- An FPSCR value with FEX and VX recomputed (R300 c). -/
def fpscrRecomputed (f : Word) : Word :=
  putBit (putBit f 30 (fpscrFEX f)) 29 (fpscrVX f)

/-- FPSCR with FEX and VX as currently computed. -/
def State.fpscrNow (s : State) : Word := fpscrRecomputed s.fpscr

/-- FPSCR as a read gives it: its reserved bit as R32 says (R72). -/
def State.fpscrView (s : State) (who : ReservedReader) : Word :=
  lo32 (s.view who fpscrReserved (zext s.fpscrNow))

/-- FPSCR after a move under a mask: FEX and VX are not written from data (R300 c). A move that
writes FI and not XX itself affects FI, so that XX becomes the OR of its old value and the new FI
(10_state.md R59, log 44). -/
def fpscrMoved (f mask v : Word) : Word :=
  let g := mergeBits (mask &&& ~~~fpscrComputed) f v
  if mask.getLsbD 17 && !mask.getLsbD 25 then putBit g 25 (f.getLsbD 25 || v.getLsbD 17) else g

/-- FPSCR written by a move (R300 to R305). -/
def State.writeFpscr (s : State) (mask v : Word) : State :=
  { s with fpscr := fpscrMoved s.fpscr mask v }

/-- Some exception bit goes from 0 to 1 (R53). -/
def fpscrRaises (old new : Word) : Bool := new &&& ~~~old &&& fpscrExc != 0

/-- FPSCR after an implicit update from `old`: FX is set by a 0-to-1 transition (R53). -/
def fpscrWithFX (old new : Word) : Word :=
  if fpscrRaises old new then new ||| fpscrFX else new

/-- CR1 copied from FPSCR bits 0-3 in a record form (R46, R307). -/
def State.recordCr1 (s : State) (rc : Bool) : State :=
  if rc then s.setCrField 1 (field4 s.fpscrNow 0) else s

/-- Some floating-point exception mode is on: MSR[FE0] | MSR[FE1] (R113). -/
def State.feEnabled (s : State) : Bool := s.msrBit msrFE0 || s.msrBit msrFE1

/-- The end of a floating-point instruction: FEX = 1 with a mode on takes the program exception
at the instruction, its effects kept; both imprecise modes are treated as precise (R310, R437,
D24, log 19). -/
def State.fpDone (s : State) : Result :=
  if fpscrFEX s.fpscr && s.feEnabled then .next (s.takeProgram .fpEnabled) else .next s.advance

/-! ## The result flags and the update templates of floating-point arithmetic

No instruction of the opcode table uses these; R70, R71, R308 and R309 define them. -/

/-- The result classes of Table 2-5 (R70). -/
inductive FpClass where
  | quietNaN | negInfinity | negNormalized | negDenormalized | negZero
  | posZero | posDenormalized | posNormalized | posInfinity
deriving DecidableEq, Repr

/-- FPRF of a result class: C, FL, FG, FE, FU (R70). -/
def FpClass.fprf : FpClass → BitVec 5
  | .quietNaN => 0b10001
  | .negInfinity => 0b01001
  | .negNormalized => 0b01000
  | .negDenormalized => 0b11000
  | .negZero => 0b10010
  | .posZero => 0b00010
  | .posDenormalized => 0b10100
  | .posNormalized => 0b00100
  | .posInfinity => 0b00101

/-- The rounding modes of FPSCR[RN] (R82). -/
inductive Rounding where
  | nearest | towardZero | towardPlusInfinity | towardMinusInfinity
deriving DecidableEq, Repr

/-- FPSCR[RN] (R82). -/
def fpscrRN (f : Word) : Rounding :=
  match (f.extractLsb' 0 2).toNat with
  | 0 => .nearest
  | 1 => .towardZero
  | 2 => .towardPlusInfinity
  | _ => .towardMinusInfinity

/-- What the arithmetic of an arithmetic, rounding or conversion instruction delivers (R308). -/
structure FpStatus where
  result : DWord
  fr : Bool
  fi : Bool
  /-- The class of the result; none where any portion of the result is undefined (R68, R70). -/
  cls : Option FpClass
  /-- The exception bits raised; VXSOFT is none of them (R73). -/
  raised : Word
deriving DecidableEq, Repr

/-- The implicit FPSCR update of an arithmetic instruction whose FPRF is `fprf` (R308). -/
def fpscrArith (f : Word) (u : FpStatus) (fprf : BitVec 5) : Word :=
  let g := f ||| (u.raised &&& fpscrRaisable)
  let g := putBit (putBit g 18 u.fr) 17 u.fi
  let g := putBit g 25 (g.getLsbD 25 || u.fi)
  fpscrWithFX f (mergeBits 0x0001F000#32 g (fprf.setWidth 32 <<< 12))

/-- FPRF as the instruction leaves it: the code of the result's class, a free value where the
result is undefined (R68, U3). -/
def State.fprfOf (s : State) (u : FpStatus) : BitVec 5 :=
  match u.cls with
  | some c => c.fprf
  | none => Config.freeFprf s.draws

/-- The instruction raises an invalid operation or zero divide whose enable is on: its result is not
written (R308, 60_exceptions.md R437, log 45). -/
def fpSuppressed (f raised : Word) : Bool :=
  (f.getLsbD 7 && raised &&& fpscrRaisable &&& fpscrInvalid != 0) || (f.getLsbD 4 && raised.getLsbD 26)

/-- FPSCR[NI] (R81). -/
def fpscrNI (f : Word) : Bool := f.getLsbD 2

/-- Floating-point arithmetic runs with NI = 0; with NI = 1 NI_EFFECTS decides (R81, D10, U6). -/
def State.ifIeee (s : State) (k : Result) : Result :=
  if fpscrNI s.fpscr && s.cfg.niEffects == .refuse then .refused .nonIeeeMode else k

/-- The template of an arithmetic, rounding or conversion instruction with the target `frd`: FPSCR,
the result, then CR1 with Rc = 1, then the enabled exception or the next instruction (R308, R310). -/
def State.fpArith (s : State) (frd : RegNum) (rc : Bool) (u : FpStatus) : Result :=
  let t := { s with fpscr := fpscrArith s.fpscr u (s.fprfOf u) }
  s.ifFp <| s.ifIeee <| State.fpDone <|
    (if fpSuppressed s.fpscr u.raised then t else t.setFpr frd u.result).recordCr1 rc

/-- The four outcomes of a floating-point compare (R309). -/
inductive FpRelation where
  | less | greater | equal | unordered
deriving DecidableEq, Repr

/-- The four bits a floating-point compare writes to FPCC and to its CR field (R71, R309). -/
def FpRelation.bits : FpRelation → BitVec 4
  | .less => 0b1000
  | .greater => 0b0100
  | .equal => 0b0010
  | .unordered => 0b0001

/-- A double-precision number is a NaN: exponent all ones, fraction not 0 (log 45). -/
def fpIsNaN (v : DWord) : Bool := v.extractLsb' 52 11 == 0x7FF#11 && v.extractLsb' 0 52 != 0#52

/-- The place of a double-precision number other than a NaN in the order of its kind; the two zeros
have one place (log 45). -/
def fpPlace (v : DWord) : Int :=
  if v.getLsbD 63 then -((v.extractLsb' 0 63).toNat : Int) else (v.extractLsb' 0 63).toNat

/-- The relation of two operands: exactly one of less, greater, equal and unordered (R309). -/
def fpRelation (a b : DWord) : FpRelation :=
  if fpIsNaN a || fpIsNaN b then .unordered
  else if fpPlace a < fpPlace b then .less
  else if fpPlace b < fpPlace a then .greater
  else .equal

/-- FPSCR after a floating-point compare that raises the exception bits `raised`, of VXSNAN and VXVC
(R309); C stays (R71). -/
def fpscrCompare (f : Word) (r : FpRelation) (raised : Word) : Word :=
  fpscrWithFX f (setField4 (f ||| (raised &&& fpscrCompareExc)) 4 r.bits)

/-- The template of a floating-point compare: the four bits go to FPCC and to CR field `crfD`; what
an invalid compare raises is in no file of spec/ and so is given (R309). -/
def State.fpCompare (s : State) (crfD : FieldNum) (fra frb : RegNum) (raised : Word) : Result :=
  let r := fpRelation (s.getFpr fra) (s.getFpr frb)
  s.ifFp <| s.ifIeee <| State.fpDone <|
    { s with fpscr := fpscrCompare s.fpscr r raised }.setCrField crfD r.bits

end Sys2Proof.Machine
end

