-- ==== Sys2Proof/Machine/Compare.lean ====
section
/-! DEFINITION. Compares and traps (spec 46_other_named.md R406 to R416). -/

namespace Sys2Proof.Machine

/-- A compare with L = 1 exists on a 64-bit implementation only; on a 32-bit one it is an invalid
form (R413). -/
def State.ifCompareForm (s : State) (l : Bool) (k : Result) : Result :=
  if l && !s.cfg.xlen64 then .refused .invalidForm else k

/-- `cmp` (R413). -/
def execCmp (crfD : FieldNum) (l : Bool) (ra rb : RegNum) (s : State) : Result :=
  s.ifCompareForm l <| .next (s.setCrField crfD
    (signedCompare (signedOperand l (s.getGpr ra)) (signedOperand l (s.getGpr rb)) s.so)).advance

/-- `cmpi` (R414). -/
def execCmpi (crfD : FieldNum) (l : Bool) (ra : RegNum) (simm : BitVec 16) (s : State) : Result :=
  s.ifCompareForm l <| .next (s.setCrField crfD
    (signedCompare (signedOperand l (s.getGpr ra)) simm.toInt s.so)).advance

/-- `cmpl` (R415). -/
def execCmpl (crfD : FieldNum) (l : Bool) (ra rb : RegNum) (s : State) : Result :=
  s.ifCompareForm l <| .next (s.setCrField crfD
    (unsignedCompare (unsignedOperand l (s.getGpr ra)) (unsignedOperand l (s.getGpr rb))
      s.so)).advance

/-- `cmpli` (R416). -/
def execCmpli (crfD : FieldNum) (l : Bool) (ra : RegNum) (uimm : BitVec 16) (s : State) : Result :=
  s.ifCompareForm l <| .next (s.setCrField crfD
    (unsignedCompare (unsignedOperand l (s.getGpr ra)) uimm.toNat s.so)).advance

/-- What a trap instruction does on its condition (R406). -/
def State.trapIf (s : State) (t : Bool) : Result :=
  .next (if t then s.takeProgram .trap else s.advance)

/-- `tw` (R406). -/
def execTw (cond : BitVec 5) (ra rb : RegNum) (s : State) : Result :=
  s.trapIf (trapCondition cond (s.gprWord ra) (s.gprWord rb))

/-- `twi` (R407): the immediate is sign-extended to 32 bits. -/
def execTwi (cond : BitVec 5) (ra : RegNum) (simm : BitVec 16) (s : State) : Result :=
  s.trapIf (trapCondition cond (s.gprWord ra) (simm.signExtend 32))

end Sys2Proof.Machine
end

