-- ==== Sys2Proof/Machine/CrMoves.lean ====
section
/-! DEFINITION. Moves to and from CR and the condition register logical instructions (spec
41_cr_xer.md R270 to R275). -/

namespace Sys2Proof.Machine

/-- `mtcrf` (R271). -/
def execMtcrf (rs : RegNum) (crm : BitVec 8) (s : State) : Result :=
  .next { s with cr := mergeBits (fieldsMask crm) s.cr (s.gprWord rs) }.advance

/-- `mcrf` (R272). -/
def execMcrf (crfD crfS : FieldNum) (s : State) : Result :=
  .next (s.setCrField crfD (field4 s.cr crfS)).advance

/-- `mcrxr` (R273): copies XER{0..3}, whose bit 3 is reserved, and clears it. -/
def execMcrxr (crfD : FieldNum) (s : State) : Result :=
  let v := lo32 (s.view .mcrxr xerReserved (zext s.xer))
  .next { s.setCrField crfD (field4 v 0) with xer := s.xer &&& 0x0FFFFFFF#32 }.advance

/-- `mfcr` (R275). -/
def execMfcr (rd : RegNum) (s : State) : Result := .next (s.setGpr rd (zext s.cr)).advance

/-- A CR logical instruction: bit crbD from bits crbA and crbB (R274). -/
def State.crLogical (s : State) (op : Bool → Bool → Bool) (crbD crbA crbB : RegNum) : Result :=
  .next { s with cr := setSrcBit s.cr crbD (op (srcBit s.cr crbA) (srcBit s.cr crbB)) }.advance

/-- `crand` (R274). -/
def execCrand (crbD crbA crbB : RegNum) (s : State) : Result :=
  s.crLogical (fun a b => a && b) crbD crbA crbB

/-- `cror` (R274). -/
def execCror (crbD crbA crbB : RegNum) (s : State) : Result :=
  s.crLogical (fun a b => a || b) crbD crbA crbB

/-- `crxor` (R274). -/
def execCrxor (crbD crbA crbB : RegNum) (s : State) : Result :=
  s.crLogical (fun a b => a ^^ b) crbD crbA crbB

/-- `crnand` (R274). -/
def execCrnand (crbD crbA crbB : RegNum) (s : State) : Result :=
  s.crLogical (fun a b => !(a && b)) crbD crbA crbB

/-- `crnor` (R274). -/
def execCrnor (crbD crbA crbB : RegNum) (s : State) : Result :=
  s.crLogical (fun a b => !(a || b)) crbD crbA crbB

/-- `creqv` (R274). -/
def execCreqv (crbD crbA crbB : RegNum) (s : State) : Result :=
  s.crLogical (fun a b => a == b) crbD crbA crbB

/-- `crandc` (R274). -/
def execCrandc (crbD crbA crbB : RegNum) (s : State) : Result :=
  s.crLogical (fun a b => a && !b) crbD crbA crbB

/-- `crorc` (R274). -/
def execCrorc (crbD crbA crbB : RegNum) (s : State) : Result :=
  s.crLogical (fun a b => a || !b) crbD crbA crbB

end Sys2Proof.Machine
end

