-- ==== Sys2Proof/Machine/Fpscr.lean ====
section
/-! DEFINITION. The six FPSCR instructions (spec 42_fpscr.md R300 to R307, R310). Each needs
MSR[FP] = 1. -/

namespace Sys2Proof.Machine

/-- `mcrfs` (R301): the copied field's exception bits and FX are cleared. -/
def execMcrfs (crfD crfS : FieldNum) (s : State) : Result :=
  s.ifFp <| State.fpDone <|
    (s.setCrField crfD (field4 (s.fpscrView .mcrfs) crfS)).writeFpscr
      (fieldMask crfS &&& (fpscrExc ||| fpscrFX)) 0

/-- `mtfsfi` (R302). -/
def execMtfsfi (crfD : FieldNum) (imm : BitVec 4) (rc : Bool) (s : State) : Result :=
  s.ifFp <| State.fpDone <| (s.writeFpscr (fieldMask crfD) (setField4 0 crfD imm)).recordCr1 rc

/-- `mtfsf` (R303). -/
def execMtfsf (fm : BitVec 8) (frb : RegNum) (rc : Bool) (s : State) : Result :=
  s.ifFp <| State.fpDone <| (s.writeFpscr (fieldsMask fm) (lo32 (s.getFpr frb))).recordCr1 rc

/-- `mtfsb0` (R304). -/
def execMtfsb0 (crbD : RegNum) (rc : Bool) (s : State) : Result :=
  s.ifFp <| State.fpDone <| (s.writeFpscr (setSrcBit 0 crbD true) 0).recordCr1 rc

/-- `mtfsb1` (R305): an exception bit that goes from 0 to 1 sets FX (R53); so does XX through a
written FI (R59, log 44). -/
def execMtfsb1 (crbD : RegNum) (rc : Bool) (s : State) : Result :=
  let bit := setSrcBit 0 crbD true
  let fx := if fpscrRaises s.fpscr (fpscrMoved s.fpscr bit bit) then fpscrFX else 0
  s.ifFp <| State.fpDone <| (s.writeFpscr (bit ||| fx) (bit ||| fx)).recordCr1 rc

/-- `mffs` (R306): the high-order word of the FPR is a free value (U29). -/
def execMffs (frd : RegNum) (rc : Bool) (s : State) : Result :=
  s.ifFp <| State.fpDone <|
    (s.setFpr frd (joinWords (Config.freeFprHigh s.draws) (s.fpscrView .mffs))).recordCr1 rc

end Sys2Proof.Machine
end

