-- ==== Sys2Proof/Machine/Integer.lean ====
section
/-! DEFINITION. Integer arithmetic and logic (spec 41_cr_xer.md R276 to R295, 46_other_named.md
R412). -/

namespace Sys2Proof.Machine

/-- `addi` (R412). -/
def execAddi (rd ra : RegNum) (simm : BitVec 16) (s : State) : Result :=
  .next (s.setGpr rd (s.base ra + simmVal simm)).advance

/-- `addic.` (R277): rA = 0 is GPR0. -/
def execAddicDot (rd ra : RegNum) (simm : BitVec 16) (s : State) : Result :=
  let a := s.getGpr ra
  let b := simmVal simm
  .next ((s.setCa (carryOut s.opWidth a b 0)).arith rd (a + b) false false true false)

/-- `andi.` (R278). -/
def execAndiDot (rs ra : RegNum) (uimm : BitVec 16) (s : State) : Result :=
  .next (s.arith ra (s.getGpr rs &&& uimmVal uimm) false false true false)

/-- `andis.` (R280). -/
def execAndisDot (rs ra : RegNum) (uimm : BitVec 16) (s : State) : Result :=
  .next (s.arith ra (s.getGpr rs &&& uimmShifted uimm) false false true false)

/-- `subfc` (R289): the sum of three values ~rA + rB + 1. -/
def execSubfc (rd ra rb : RegNum) (oe rc : Bool) (s : State) : Result :=
  let a := ~~~s.getGpr ra
  let b := s.getGpr rb
  .next ((s.setCa (carryOut s.opWidth a b 1)).arith rd (a + b + 1#64) oe
    (ovAdd s.opWidth a b 1) rc false)

/-- `mulhw` (R281). -/
def execMulhw (rd ra rb : RegNum) (rc : Bool) (s : State) : Result :=
  let p := (s.gprWord ra).toInt * (s.gprWord rb).toInt
  .next (s.arith rd (s.wordResult (hi32 (BitVec.ofInt 64 p))) false false rc s.mode64)

/-- `mulhwu` (R282). -/
def execMulhwu (rd ra rb : RegNum) (rc : Bool) (s : State) : Result :=
  let p := (s.gprWord ra).toNat * (s.gprWord rb).toNat
  .next (s.arith rd (s.wordResult (hi32 (BitVec.ofNat 64 p))) false false rc s.mode64)

/-- `mullw` (R285): the 64-bit product, of which a 32-bit register holds the low half. -/
def execMullw (rd ra rb : RegNum) (oe rc : Bool) (s : State) : Result :=
  let p := (s.gprWord ra).toInt * (s.gprWord rb).toInt
  .next (s.arith rd (BitVec.ofInt 64 p) oe (decide (p < -2 ^ 31) || decide (2 ^ 31 - 1 < p)) rc
    false)

/-- `mulld` (R286). -/
def execMulld (rd ra rb : RegNum) (oe rc : Bool) (s : State) : Result :=
  let p := (s.getGpr ra).toInt * (s.getGpr rb).toInt
  s.ifExists s.cfg.xlen64 <|
    .next (s.arith rd (BitVec.ofInt 64 p) oe (decide (p < -2 ^ 63) || decide (2 ^ 63 - 1 < p)) rc
      false)

/-- `divw` (R283): a quotient that 32 bits cannot represent is a free value. -/
def execDivw (rd ra rb : RegNum) (oe rc : Bool) (s : State) : Result :=
  let n := (s.gprWord ra).toInt
  let d := (s.gprWord rb).toInt
  let bad := decide (d = 0) || (decide (n = -2 ^ 31) && decide (d = -1))
  let q := if bad then lo32 (Config.freeResult s.draws) else BitVec.ofInt 32 (n.tdiv d)
  .next (s.arith rd (s.wordResult q) oe bad rc (s.mode64 || bad))

/-- `divwu` (R284). -/
def execDivwu (rd ra rb : RegNum) (oe rc : Bool) (s : State) : Result :=
  let n := (s.gprWord ra).toNat
  let d := (s.gprWord rb).toNat
  let bad := decide (d = 0)
  let q := if bad then lo32 (Config.freeResult s.draws) else BitVec.ofNat 32 (n / d)
  .next (s.arith rd (s.wordResult q) oe bad rc (s.mode64 || bad))

/-- `divd` (R287). -/
def execDivd (rd ra rb : RegNum) (oe rc : Bool) (s : State) : Result :=
  let n := (s.getGpr ra).toInt
  let d := (s.getGpr rb).toInt
  let bad := decide (d = 0) || (decide (n = -2 ^ 63) && decide (d = -1))
  let q := if bad then Config.freeResult s.draws else BitVec.ofInt 64 (n.tdiv d)
  s.ifExists s.cfg.xlen64 <| .next (s.arith rd q oe bad rc bad)

/-- `divdu` (R288). -/
def execDivdu (rd ra rb : RegNum) (oe rc : Bool) (s : State) : Result :=
  let n := (s.getGpr ra).toNat
  let d := (s.getGpr rb).toNat
  let bad := decide (d = 0)
  let q := if bad then Config.freeResult s.draws else BitVec.ofNat 64 (n / d)
  s.ifExists s.cfg.xlen64 <| .next (s.arith rd q oe bad rc bad)

end Sys2Proof.Machine
end

