-- ==== Sys2Proof/Machine/Spr.lean ====
section
/-! DEFINITION. Moves to and from the special-purpose registers and from the time base (spec
40_spr_access.md R250 to R259, 44_timebase_dec.md R341 to R353). -/

namespace Sys2Proof.Machine

/-- A special-purpose register (10_state.md R30). -/
inductive Spr where
  | xer | lr | ctr | dsisr | dar | dec | sdr1 | srr0 | srr1
  | sprg (i : Fin 4)
  | asr | ear | tbl | tbu | pvr
  | ibatU (i : Fin 4) | ibatL (i : Fin 4) | dbatU (i : Fin 4) | dbatL (i : Fin 4)
  | dabr | fpecr | pir
deriving DecidableEq, Repr

/-- The register a number names on the implementation; none for an undefined number: an absent
optional register, ASR on a 32-bit implementation, any number no register has (R41, R256). -/
def sprNamed (c : Config) (n : BitVec 10) : Option Spr :=
  match n.toNat with
  | 1 => some .xer
  | 8 => some .lr
  | 9 => some .ctr
  | 18 => some .dsisr
  | 19 => some .dar
  | 22 => some .dec
  | 25 => some .sdr1
  | 26 => some .srr0
  | 27 => some .srr1
  | 272 => some (.sprg 0)
  | 273 => some (.sprg 1)
  | 274 => some (.sprg 2)
  | 275 => some (.sprg 3)
  | 280 => if c.xlen64 then some .asr else none
  | 282 => if c.hasEar then some .ear else none
  | 284 => some .tbl
  | 285 => some .tbu
  | 287 => some .pvr
  | 528 => some (.ibatU 0)
  | 529 => some (.ibatL 0)
  | 530 => some (.ibatU 1)
  | 531 => some (.ibatL 1)
  | 532 => some (.ibatU 2)
  | 533 => some (.ibatL 2)
  | 534 => some (.ibatU 3)
  | 535 => some (.ibatL 3)
  | 536 => some (.dbatU 0)
  | 537 => some (.dbatL 0)
  | 538 => some (.dbatU 1)
  | 539 => some (.dbatL 1)
  | 540 => some (.dbatU 2)
  | 541 => some (.dbatL 2)
  | 542 => some (.dbatU 3)
  | 543 => some (.dbatL 3)
  | 1013 => if c.hasDabr then some .dabr else none
  | 1022 => if c.hasFpecr then some .fpecr else none
  | 1023 => if c.hasPir then some .pir else none
  | _ => none

/-- The numbers `mfspr` reads: TBL and TBU are write-only (R257, D23). -/
def sprReadable (c : Config) (n : BitVec 10) : Option Spr :=
  match sprNamed c n with
  | some .tbl => none
  | some .tbu => none
  | r => r

/-- The numbers `mtspr` writes: PVR is read-only (R257, D23). -/
def sprWritable (c : Config) (n : BitVec 10) : Option Spr :=
  match sprNamed c n with
  | some .pvr => none
  | r => r

/-- Bit n[4] of the number marks the supervisor-level ones (30_encoding.md R214, R255). -/
def sprPrivileged (n : BitVec 10) : Bool := n.getLsbD 4

/-- A register's content as it was last written, a 32-bit one with 32 zeros to its left (R253). -/
def State.sprValue (s : State) : Spr → DWord
  | .xer => zext s.xer
  | .lr => s.lr
  | .ctr => s.ctr
  | .dsisr => zext s.dsisr
  | .dar => s.dar
  | .dec => zext s.dec
  | .sdr1 => s.sdr1
  | .srr0 => s.srr0
  | .srr1 => s.srr1
  | .sprg i => s.sprg[i]
  | .asr => s.asr
  | .ear => zext s.ear
  | .tbl => zext s.tbl
  | .tbu => zext s.tbu
  | .pvr => zext s.cfg.pvr
  | .ibatU i => s.ibatU[i]
  | .ibatL i => s.ibatL[i]
  | .dbatU i => s.dbatU[i]
  | .dbatL i => s.dbatL[i]
  | .dabr => s.dabr
  | .fpecr => zext s.fpecr
  | .pir => zext s.pir

/-- The reserved bits of a register (R32 and the layouts of 10_state.md). -/
def sprReserved (c : Config) : Spr → DWord
  | .xer => xerReserved
  | .sdr1 => sdr1Reserved c
  | .srr0 => srr0Reserved
  | .asr => asrReserved c
  | .ear => earReserved c
  | .ibatU _ => batUReserved
  | .ibatL _ => batLReserved
  | .dbatU _ => batUReserved
  | .dbatL _ => batLReserved
  | .lr => 0
  | .ctr => 0
  | .dsisr => 0
  | .dar => 0
  | .dec => 0
  | .srr1 => 0
  | .sprg _ => 0
  | .tbl => 0
  | .tbu => 0
  | .pvr => 0
  | .dabr => 0
  | .fpecr => 0
  | .pir => 0

/-- What `mfspr` reads. -/
def State.readSpr (s : State) (n : BitVec 10) (r : Spr) : DWord :=
  s.view (.mfspr n) (sprReserved s.cfg r) (s.sprValue r)

/-- What `mtspr` writes: an XLEN-wide register takes the GPR, a 32-bit one its low-order word; DEC
signals a request when its bit 0 goes from 0 to 1 (R251, R253, R258, R353). -/
def State.writeSpr (s : State) (r : Spr) (v : DWord) : State :=
  match r with
  | .xer => { s with xer := lo32 v }
  | .lr => { s with lr := s.x v }
  | .ctr => { s with ctr := s.x v }
  | .dsisr => { s with dsisr := lo32 v }
  | .dar => { s with dar := s.x v }
  | .dec =>
    { s with
      dec := lo32 v
      decRequest := s.decRequest || (!s.dec.getLsbD 31 && (lo32 v).getLsbD 31) }
  | .sdr1 => { s with sdr1 := s.x v }
  | .srr0 => { s with srr0 := s.x v }
  | .srr1 => { s with srr1 := s.x v }
  | .sprg i => { s with sprg := s.sprg.set i (s.x v) }
  | .asr => { s with asr := v }
  | .ear => { s with ear := lo32 v }
  | .tbl => { s with tbl := lo32 v }
  | .tbu => { s with tbu := lo32 v }
  | .pvr => s
  | .ibatU i => { s with ibatU := s.ibatU.set i (s.x v) }
  | .ibatL i => { s with ibatL := s.ibatL.set i (s.x v) }
  | .dbatU i => { s with dbatU := s.dbatU.set i (s.x v) }
  | .dbatL i => { s with dbatL := s.dbatL.set i (s.x v) }
  | .dabr => { s with dabr := s.x v }
  | .fpecr => { s with fpecr := lo32 v }
  | .pir => { s with pir := lo32 v }

/-- Instruction or data translation is on. -/
def State.translating (s : State) : Bool := s.msrBit msrIR || s.msrBit msrDR

/-- The writes whose result the spec calls undefined: SDR1 under translation
(70_reset_and_hazards.md R494), W or G of a lower IBAT (10_state.md R130, U11). -/
def State.sprWriteStop (s : State) (r : Spr) (v : DWord) : Option Refusal :=
  match r with
  | .sdr1 => if s.translating then some .sdr1WhileTranslating else none
  | .ibatL _ => if v &&& batWG = 0 then none else some .ibatWG
  | _ => none

/-- What an undefined SPR or TBR number does: UNDEF_SPR_POLICY (R256, 44_timebase_dec.md R346). -/
def State.undefinedSpr (s : State) : Result :=
  match s.cfg.undefSpr with
  | .illegal => s.illegal
  | .privileged => s.privileged
  | .refuse => .refused .undefinedSpr

/-- `mtspr` (R251): the privilege test is on the number alone and comes first (R255). -/
def execMtspr (rs : RegNum) (spr : BitVec 10) (s : State) : Result :=
  if s.user && sprPrivileged spr then s.privileged
  else
    match sprWritable s.cfg spr with
    | none => s.undefinedSpr
    | some r =>
      match s.sprWriteStop r (s.getGpr rs) with
      | some e => .refused e
      | none => .next (s.writeSpr r (s.getGpr rs)).advance

/-- `mfspr` (R252). -/
def execMfspr (rd : RegNum) (spr : BitVec 10) (s : State) : Result :=
  if s.user && sprPrivileged spr then s.privileged
  else
    match sprReadable s.cfg spr with
    | none => s.undefinedSpr
    | some r => .next (s.setGpr rd (s.readSpr spr r)).advance

/-- `mftb` (44_timebase_dec.md R341): number 268 gives the whole time base on a 64-bit
implementation and its low half on a 32-bit one, 269 the upper half; no privilege is needed. -/
def execMftb (rd : RegNum) (tbr : BitVec 10) (s : State) : Result :=
  if tbr = tbrTBL then .next (s.setGpr rd s.timeBase).advance
  else if tbr = tbrTBU then .next (s.setGpr rd (zext s.tbu)).advance
  else s.undefinedSpr

end Sys2Proof.Machine
end

