-- ==== Sys2Proof/Machine/Storage.lean ====
section
/-! DEFINITION. Loads, strings, external control, synchronization and lookaside invalidation (spec
46_other_named.md R391 to R404, R417). -/

namespace Sys2Proof.Machine

/-- `lwz` (R417): the word, zero-extended. -/
def execLwz (rd ra : RegNum) (d : BitVec 16) (s : State) : Result :=
  s.onAccess (s.accessWord false (s.eaDisp ra d)) fun pas t =>
    .next (t.setGpr rd (zext (t.readWord pas))).advance

/-- `lswx` (R391): every byte is tested before any is loaded (R457). With a byte count of 0 no
memory is accessed and rD is a free value (U28). -/
def execLswx (rd ra rb : RegNum) (s : State) : Result :=
  if lswxInvalid rd ra rb s.byteCount then .refused .invalidForm
  else if s.byteCount = 0 then .next (s.setGpr rd (Config.freeResult s.draws)).advance
  else
    s.onAccess (s.accessBytes false (s.eaIndexed ra rb) s.byteCount) fun pas t =>
      .next (t.loadString rd (Memory.readAll t.mem pas)).advance

/-- `stswx` (R392). -/
def execStswx (rs ra rb : RegNum) (s : State) : Result :=
  if s.byteCount = 0 then .next s.advance
  else
    s.onAccess (s.accessBytes true (s.eaIndexed ra rb) s.byteCount) fun pas t =>
      .next (t.storeBytes pas (s.stringBytes rs s.byteCount)).advance

/-- The word the external device answers: the next queued reply, else a free value (U35, log 13). -/
def State.extReply (s : State) : Word := s.extReplies.headD (Config.freeReply s.draws)

/-- A transmission to the external device (20_memory.md R197). -/
def State.sendExternal (s : State) (pa : DWord) (word : Option Word) : State :=
  { s with extSent := s.extSent ++ [⟨earRID s.cfg s.ear, pa, word⟩] }

/-- The tests of `eciwx` and `ecowx`: EAR[E] before the access (R396). -/
def State.externalAccess (s : State) (store : Bool) (ea : DWord) : Access :=
  if earE s.ear then s.accessExternal store ea else .dsi ea (dsisrExternal store)

/-- `eciwx` (R396): the device receives the physical address and the resource ID and answers with
a word; memory is not read. -/
def execEciwx (rd ra rb : RegNum) (s : State) : Result :=
  s.ifExists s.cfg.hasEar <|
    s.onAccess (s.externalAccess false (s.eaIndexed ra rb)) fun pas t =>
      .next ({ t.sendExternal (pas.headD 0) none with extReplies := t.extReplies.tail }.setGpr rd
        (zext t.extReply)).advance

/-- `ecowx` (R397): the device also receives a word; memory is not written. -/
def execEcowx (rs ra rb : RegNum) (s : State) : Result :=
  s.ifExists s.cfg.hasEar <|
    s.onAccess (s.externalAccess true (s.eaIndexed ra rb)) fun pas t =>
      .next (t.sendExternal (pas.headD 0) (some (s.gprWord rs))).advance

/-- `sync` (R400, 20_memory.md R199): with one processor and program order it changes nothing but
pc; it is not assumed to be context synchronizing. -/
def execSync (s : State) : Result := .next s.advance

/-- `slbie` (R401): there is no SLB state (10_state.md R165). DESIGN CHOICE (log 30): the sixteen
images of the bridge's segment registers, which R374 calls SLB entries, stay as they are. -/
def execSlbie (_rb : RegNum) (s : State) : Result :=
  s.ifExists s.cfg.xlen64 <| s.ifSupervisor <| .next s.advance

/-- `slbia` (R402): nothing, as `slbie`; the bridge's sixteen images stay (log 30). -/
def execSlbia (s : State) : Result :=
  s.ifExists s.cfg.xlen64 <| s.ifSupervisor <| .next s.advance

/-- `tlbie` (R403): there is no TLB state (10_state.md R165). -/
def execTlbie (_rb : RegNum) (s : State) : Result := s.ifSupervisor <| .next s.advance

/-- `tlbia` (R404), where the implementation has it. -/
def execTlbia (s : State) : Result :=
  s.ifExists s.cfg.hasTlbia <| s.ifSupervisor <| .next s.advance

end Sys2Proof.Machine
end

