-- ==== Sys2Proof/Machine/System.lean ====
section
/-! DEFINITION. MSR moves, system call, returns and segment-register moves (spec
45_msr_sr_system.md R360 to R374). All but `sc` are supervisor-level. -/

namespace Sys2Proof.Machine

/-- After a change of MSR: if FE0 or FE1 changed and the new mode is on while FEX = 1, the enabled
floating-point program exception follows; SRR0 is the next instruction and the information says so
(R367, 42_fpscr.md R310, 60_exceptions.md R437, R446, R448, log 19). -/
def State.afterMsrChange (old : State) (t : State) : Result :=
  if (old.msrBit msrFE0 != t.msrBit msrFE0 || old.msrBit msrFE1 != t.msrBit msrFE1) &&
      t.feEnabled && fpscrFEX t.fpscr then
    .next (t.take (.program .fpEnabled) t.pc (ProgramCause.fpEnabled.info ||| 0x00010000#64))
  else .next t

/-- A move to MSR: the new value is in force from the next instruction, whose address is masked as
the new mode asks (R166, R367). A 1 written to an implemented POW has no meaning
(60_exceptions.md R467, log 17). -/
def State.moveToMsr (s : State) (m : DWord) : Result :=
  if s.cfg.hasPow && m.getLsbD msrPOW then .refused .powerManagement
  else
    let t := { s with msr := s.x m }
    s.afterMsrChange { t with pc := t.ea s.nextPc }

/-- The value `mtmsr` writes: the low-order 32 bits; with the bridge the high-order ones stay
(R361). -/
def State.mtmsrValue (s : State) (rs : RegNum) : DWord := joinWords (hi32 s.msr) (s.gprWord rs)

/-- `mtmsr` (R361). -/
def execMtmsr (rs : RegNum) (s : State) : Result :=
  s.ifExists s.cfg.has32BitForms <| s.ifSupervisor <| s.moveToMsr (s.mtmsrValue rs)

/-- `mtmsrd` (R362). -/
def execMtmsrd (rs : RegNum) (s : State) : Result :=
  s.ifExists s.cfg.xlen64 <| s.ifSupervisor <| s.moveToMsr (s.getGpr rs)

/-- `mfmsr` (R363). -/
def execMfmsr (rd : RegNum) (s : State) : Result :=
  s.ifSupervisor <| .next (s.setGpr rd (s.msrView .mfmsr)).advance

/-- `sc` (R364): SRR0 is the address of the instruction that follows. -/
def execSc (s : State) : Result := .next (s.take .systemCall (s.pc + 4#64) 0)

/-- `rfi` (R365). -/
def execRfi (s : State) : Result :=
  s.ifExists s.cfg.has32BitForms <| s.ifSupervisor <|
    s.afterMsrChange (s.returnTo s.msrFromSrr1Low)

/-- `rfid` (R366). -/
def execRfid (s : State) : Result :=
  s.ifExists s.cfg.xlen64 <| s.ifSupervisor <| s.afterMsrChange (s.returnTo s.msrFromSrr1)

/-- A segment register as a read gives it (R143, R144), unchanged on the bridge (R374). -/
def State.srView (s : State) (i : BitVec 4) : DWord :=
  s.view .mfsr (srReserved s.cfg (s.getSr i)) (zext (s.getSr i))

/-- `mtsr` (R370). -/
def execMtsr (rs : RegNum) (sr : BitVec 4) (s : State) : Result :=
  s.ifExists s.cfg.has32BitForms <| s.ifSupervisor <|
    .next (s.setSr sr (s.gprWord rs)).advance

/-- `mtsrin` (R371). -/
def execMtsrin (rs rb : RegNum) (s : State) : Result :=
  s.ifExists s.cfg.has32BitForms <| s.ifSupervisor <|
    .next (s.setSr (srSelect (s.getGpr rb)) (s.gprWord rs)).advance

/-- `mfsr` (R372). -/
def execMfsr (rd : RegNum) (sr : BitVec 4) (s : State) : Result :=
  s.ifExists s.cfg.has32BitForms <| s.ifSupervisor <|
    .next (s.setGpr rd (s.srView sr)).advance

/-- `mfsrin` (R373). -/
def execMfsrin (rd rb : RegNum) (s : State) : Result :=
  s.ifExists s.cfg.has32BitForms <| s.ifSupervisor <|
    .next (s.setGpr rd (s.srView (srSelect (s.getGpr rb)))).advance

end Sys2Proof.Machine
end

