-- ==== Sys2Proof/Machine/Dispatch.lean ====
section
/-! DEFINITION. One arm for every instruction: a direct call of its meaning. -/

namespace Sys2Proof.Machine

def exec (i : Instr) (s : State) : Host.Outcome State Fault Refusal :=
  match i with
  | .twi cond ra simm => Sys2Proof.Machine.execTwi cond ra simm s
  | .cmpli crfD l ra uimm => Sys2Proof.Machine.execCmpli crfD l ra uimm s
  | .cmpi crfD l ra simm => Sys2Proof.Machine.execCmpi crfD l ra simm s
  | .addicDot rd ra simm => Sys2Proof.Machine.execAddicDot rd ra simm s
  | .addi rd ra simm => Sys2Proof.Machine.execAddi rd ra simm s
  | .bc bo bi bd aa lk => Sys2Proof.Machine.execBc bo bi bd aa lk s
  | .sc => Sys2Proof.Machine.execSc s
  | .b li aa lk => Sys2Proof.Machine.execB li aa lk s
  | .mcrf crfD crfS => Sys2Proof.Machine.execMcrf crfD crfS s
  | .bclr bo bi lk => Sys2Proof.Machine.execBclr bo bi lk s
  | .rfid => Sys2Proof.Machine.execRfid s
  | .crnor crbD crbA crbB => Sys2Proof.Machine.execCrnor crbD crbA crbB s
  | .rfi => Sys2Proof.Machine.execRfi s
  | .crandc crbD crbA crbB => Sys2Proof.Machine.execCrandc crbD crbA crbB s
  | .crxor crbD crbA crbB => Sys2Proof.Machine.execCrxor crbD crbA crbB s
  | .crnand crbD crbA crbB => Sys2Proof.Machine.execCrnand crbD crbA crbB s
  | .crand crbD crbA crbB => Sys2Proof.Machine.execCrand crbD crbA crbB s
  | .creqv crbD crbA crbB => Sys2Proof.Machine.execCreqv crbD crbA crbB s
  | .crorc crbD crbA crbB => Sys2Proof.Machine.execCrorc crbD crbA crbB s
  | .cror crbD crbA crbB => Sys2Proof.Machine.execCror crbD crbA crbB s
  | .bcctr bo bi lk => Sys2Proof.Machine.execBcctr bo bi lk s
  | .andiDot rs ra uimm => Sys2Proof.Machine.execAndiDot rs ra uimm s
  | .andisDot rs ra uimm => Sys2Proof.Machine.execAndisDot rs ra uimm s
  | .cmp crfD l ra rb => Sys2Proof.Machine.execCmp crfD l ra rb s
  | .tw cond ra rb => Sys2Proof.Machine.execTw cond ra rb s
  | .subfc rd ra rb oe rc => Sys2Proof.Machine.execSubfc rd ra rb oe rc s
  | .mulhwu rd ra rb rc => Sys2Proof.Machine.execMulhwu rd ra rb rc s
  | .mfcr rd => Sys2Proof.Machine.execMfcr rd s
  | .cmpl crfD l ra rb => Sys2Proof.Machine.execCmpl crfD l ra rb s
  | .mulhw rd ra rb rc => Sys2Proof.Machine.execMulhw rd ra rb rc s
  | .mfmsr rd => Sys2Proof.Machine.execMfmsr rd s
  | .mtcrf rs crm => Sys2Proof.Machine.execMtcrf rs crm s
  | .mtmsr rs => Sys2Proof.Machine.execMtmsr rs s
  | .mtmsrd rs => Sys2Proof.Machine.execMtmsrd rs s
  | .mtsr rs sr => Sys2Proof.Machine.execMtsr rs sr s
  | .mulld rd ra rb oe rc => Sys2Proof.Machine.execMulld rd ra rb oe rc s
  | .mullw rd ra rb oe rc => Sys2Proof.Machine.execMullw rd ra rb oe rc s
  | .mtsrin rs rb => Sys2Proof.Machine.execMtsrin rs rb s
  | .tlbie rb => Sys2Proof.Machine.execTlbie rb s
  | .eciwx rd ra rb => Sys2Proof.Machine.execEciwx rd ra rb s
  | .mfspr rd spr => Sys2Proof.Machine.execMfspr rd spr s
  | .tlbia => Sys2Proof.Machine.execTlbia s
  | .mftb rd tbr => Sys2Proof.Machine.execMftb rd tbr s
  | .slbie rb => Sys2Proof.Machine.execSlbie rb s
  | .ecowx rs ra rb => Sys2Proof.Machine.execEcowx rs ra rb s
  | .divdu rd ra rb oe rc => Sys2Proof.Machine.execDivdu rd ra rb oe rc s
  | .divwu rd ra rb oe rc => Sys2Proof.Machine.execDivwu rd ra rb oe rc s
  | .mtspr rs spr => Sys2Proof.Machine.execMtspr rs spr s
  | .divd rd ra rb oe rc => Sys2Proof.Machine.execDivd rd ra rb oe rc s
  | .divw rd ra rb oe rc => Sys2Proof.Machine.execDivw rd ra rb oe rc s
  | .slbia => Sys2Proof.Machine.execSlbia s
  | .mcrxr crfD => Sys2Proof.Machine.execMcrxr crfD s
  | .lswx rd ra rb => Sys2Proof.Machine.execLswx rd ra rb s
  | .mfsr rd sr => Sys2Proof.Machine.execMfsr rd sr s
  | .sync => Sys2Proof.Machine.execSync s
  | .mfsrin rd rb => Sys2Proof.Machine.execMfsrin rd rb s
  | .stswx rs ra rb => Sys2Proof.Machine.execStswx rs ra rb s
  | .lwz rd ra d => Sys2Proof.Machine.execLwz rd ra d s
  | .mtfsb1 crbD rc => Sys2Proof.Machine.execMtfsb1 crbD rc s
  | .mcrfs crfD crfS => Sys2Proof.Machine.execMcrfs crfD crfS s
  | .mtfsb0 crbD rc => Sys2Proof.Machine.execMtfsb0 crbD rc s
  | .mtfsfi crfD imm rc => Sys2Proof.Machine.execMtfsfi crfD imm rc s
  | .mffs frd rc => Sys2Proof.Machine.execMffs frd rc s
  | .mtfsf fm frb rc => Sys2Proof.Machine.execMtfsf fm frb rc s

end Sys2Proof.Machine
end

