-- ==== Sys2Proof/Machine/Run.lean ====
section
/-! DEFINITION. What the processor does at a boundary (spec 60_exceptions.md R451), and where an
instruction placed from outside goes. -/

namespace Sys2Proof.Machine

/-- Fetches, decodes and executes the instruction at pc, then traces it. -/
def State.runInstr (t : State) : Host.Outcome State Fault Refusal :=
  match t.fetch with
  | .isi info => .next (t.take .isi t.pc info)
  | .absent => t.absentMemory
  | .refused r => .refused r
  | .word w =>
    match decode w with
    | .error _ => .refused .undescribedWord
    | .ok i => t.afterInstr i (exec i t.clobberFetch)

/-- What the processor does at a boundary, the input given and the ticks applied: reset, the
checkstop state, machine check, external interrupt, decrementer, else an instruction, in this
order (R451, D28, log 22). Little-endian mode (20_memory.md R172) and an implemented MSR[POW]
(10_state.md R108) have no meaning. -/
def State.boundary (t : State) (i : Input) (last : Bool) : Host.Outcome State Fault Refusal :=
  match i.reset with
  | some .hard => .next t.hardReset
  | some .soft => .next t.softReset
  | none =>
    if t.checkstop then (if last then .fault .checkstop else .next t)
    else if t.msrBit msrLE then .refused .littleEndian
    else if t.cfg.hasPow && t.msrBit msrPOW then .refused .powerManagement
    else if i.mcRequest then .next t.takeMachineCheck
    else if t.msrBit msrEE && i.extInt then .next (t.take .externalInterrupt t.pc 0)
    else if t.msrBit msrEE && t.decRequest then .next (t.take .decrementer t.pc 0)
    else t.runInstr

/-! ## The next instruction, placed from outside -/

/-- The physical address of the word at pc, where the fetch translates; pc itself otherwise. -/
def State.fetchAddr (s : State) : DWord :=
  match s.fetchWalk (s.ea s.pc) with
  | .phys pa _ => pa
  | .fault _ => s.ea s.pc
  | .absent => s.ea s.pc
  | .refused _ => s.ea s.pc

/-- The queue of inputs with its first one changed so that the next step executes an instruction:
nothing requested; with MSR[EE] = 1 no interrupt and no tick. -/
def State.quietInputs (s : State) : List Input :=
  match s.inputs with
  | [] => if s.msrBit msrEE then [⟨0, false, false, none⟩] else []
  | i :: rest =>
    (if s.msrBit msrEE then ⟨0, false, false, none⟩ else ⟨i.ticks, i.extInt, false, none⟩) :: rest

/-- `s` with a word stored where the next step fetches it, high-order byte first, and the pending
requests that would keep the next step from executing it withdrawn (log 37). -/
def State.placeWord (s : State) (w : Word) : State :=
  let pas := s.wordAddrs s.fetchAddr
  { s with
    mem := Memory.writeAll s.mem pas (wordBytes w)
    storedSinceSync :=
      s.storedSinceSync.filter fun a => !(pas.map BitVec.toNat).contains a
    inputs := s.quietInputs
    checkstop := false
    decRequest := s.decRequest && !s.msrBit msrEE }

end Sys2Proof.Machine
end

