-- ==== Sys2Proof/Machine/Step.lean ====
section
/-! DEFINITION. The step, one per instruction boundary (spec 60_exceptions.md R451), and the
machine with an instruction placed where the step fetches it. -/

namespace Sys2Proof.Machine

/-- One step: the environment and the ticker, then the processor. -/
def step (s : State) : Host.Outcome State Fault Refusal :=
  s.atBoundary.boundary s.nextInput s.inputs.isEmpty

/-- `s` with the instruction `w` of a row of `nbits` bits, the bits above 0, stored where the next
step fetches it. -/
def State.withFetchWord (s : State) (nbits w : Nat) : State :=
  s.placeWord (BitVec.ofNat 32 (w % 2 ^ nbits))

end Sys2Proof.Machine
end

