-- ==== Sys2Proof/Laws/State.lean ====
section
/-! SUPPORT. What each update does to each field, one lemma per field, so that no proof unfolds a
record update. -/

namespace Sys2Proof.Machine


/-! ## State.advance -/

@[simp] theorem State.advance_cfg (s : State) :
    (s.advance).cfg = s.cfg := rfl
@[simp] theorem State.advance_gpr (s : State) :
    (s.advance).gpr = s.gpr := rfl
@[simp] theorem State.advance_fpr (s : State) :
    (s.advance).fpr = s.fpr := rfl
@[simp] theorem State.advance_cr (s : State) :
    (s.advance).cr = s.cr := rfl
@[simp] theorem State.advance_fpscr (s : State) :
    (s.advance).fpscr = s.fpscr := rfl
@[simp] theorem State.advance_xer (s : State) :
    (s.advance).xer = s.xer := rfl
@[simp] theorem State.advance_lr (s : State) :
    (s.advance).lr = s.lr := rfl
@[simp] theorem State.advance_ctr (s : State) :
    (s.advance).ctr = s.ctr := rfl
@[simp] theorem State.advance_tbu (s : State) :
    (s.advance).tbu = s.tbu := rfl
@[simp] theorem State.advance_tbl (s : State) :
    (s.advance).tbl = s.tbl := rfl
@[simp] theorem State.advance_msr (s : State) :
    (s.advance).msr = s.msr := rfl
@[simp] theorem State.advance_ibatU (s : State) :
    (s.advance).ibatU = s.ibatU := rfl
@[simp] theorem State.advance_ibatL (s : State) :
    (s.advance).ibatL = s.ibatL := rfl
@[simp] theorem State.advance_dbatU (s : State) :
    (s.advance).dbatU = s.dbatU := rfl
@[simp] theorem State.advance_dbatL (s : State) :
    (s.advance).dbatL = s.dbatL := rfl
@[simp] theorem State.advance_sdr1 (s : State) :
    (s.advance).sdr1 = s.sdr1 := rfl
@[simp] theorem State.advance_asr (s : State) :
    (s.advance).asr = s.asr := rfl
@[simp] theorem State.advance_sr (s : State) :
    (s.advance).sr = s.sr := rfl
@[simp] theorem State.advance_dar (s : State) :
    (s.advance).dar = s.dar := rfl
@[simp] theorem State.advance_sprg (s : State) :
    (s.advance).sprg = s.sprg := rfl
@[simp] theorem State.advance_dsisr (s : State) :
    (s.advance).dsisr = s.dsisr := rfl
@[simp] theorem State.advance_srr0 (s : State) :
    (s.advance).srr0 = s.srr0 := rfl
@[simp] theorem State.advance_srr1 (s : State) :
    (s.advance).srr1 = s.srr1 := rfl
@[simp] theorem State.advance_fpecr (s : State) :
    (s.advance).fpecr = s.fpecr := rfl
@[simp] theorem State.advance_dec (s : State) :
    (s.advance).dec = s.dec := rfl
@[simp] theorem State.advance_dabr (s : State) :
    (s.advance).dabr = s.dabr := rfl
@[simp] theorem State.advance_ear (s : State) :
    (s.advance).ear = s.ear := rfl
@[simp] theorem State.advance_pir (s : State) :
    (s.advance).pir = s.pir := rfl
@[simp] theorem State.advance_decRequest (s : State) :
    (s.advance).decRequest = s.decRequest := rfl
@[simp] theorem State.advance_pc (s : State) :
    (s.advance).pc = s.nextPc := rfl
@[simp] theorem State.advance_mem (s : State) :
    (s.advance).mem = s.mem := rfl
@[simp] theorem State.advance_checkstop (s : State) :
    (s.advance).checkstop = s.checkstop := rfl
@[simp] theorem State.advance_storedSinceSync (s : State) :
    (s.advance).storedSinceSync = s.storedSinceSync := rfl
@[simp] theorem State.advance_inputs (s : State) :
    (s.advance).inputs = s.inputs := rfl
@[simp] theorem State.advance_extReplies (s : State) :
    (s.advance).extReplies = s.extReplies := rfl
@[simp] theorem State.advance_extSent (s : State) :
    (s.advance).extSent = s.extSent := rfl
@[simp] theorem State.advance_lastExc (s : State) :
    (s.advance).lastExc = s.lastExc := rfl
@[simp] theorem State.advance_draws (s : State) :
    (s.advance).draws = s.draws := rfl

/-! ## State.setGpr -/

@[simp] theorem State.setGpr_cfg (s : State) (r : RegNum) (v : DWord) :
    (s.setGpr r v).cfg = s.cfg := rfl
@[simp] theorem State.setGpr_gpr (s : State) (r : RegNum) (v : DWord) :
    (s.setGpr r v).gpr = s.gpr.set r.toNat (s.x v) r.isLt := rfl
@[simp] theorem State.setGpr_fpr (s : State) (r : RegNum) (v : DWord) :
    (s.setGpr r v).fpr = s.fpr := rfl
@[simp] theorem State.setGpr_cr (s : State) (r : RegNum) (v : DWord) :
    (s.setGpr r v).cr = s.cr := rfl
@[simp] theorem State.setGpr_fpscr (s : State) (r : RegNum) (v : DWord) :
    (s.setGpr r v).fpscr = s.fpscr := rfl
@[simp] theorem State.setGpr_xer (s : State) (r : RegNum) (v : DWord) :
    (s.setGpr r v).xer = s.xer := rfl
@[simp] theorem State.setGpr_lr (s : State) (r : RegNum) (v : DWord) :
    (s.setGpr r v).lr = s.lr := rfl
@[simp] theorem State.setGpr_ctr (s : State) (r : RegNum) (v : DWord) :
    (s.setGpr r v).ctr = s.ctr := rfl
@[simp] theorem State.setGpr_tbu (s : State) (r : RegNum) (v : DWord) :
    (s.setGpr r v).tbu = s.tbu := rfl
@[simp] theorem State.setGpr_tbl (s : State) (r : RegNum) (v : DWord) :
    (s.setGpr r v).tbl = s.tbl := rfl
@[simp] theorem State.setGpr_msr (s : State) (r : RegNum) (v : DWord) :
    (s.setGpr r v).msr = s.msr := rfl
@[simp] theorem State.setGpr_ibatU (s : State) (r : RegNum) (v : DWord) :
    (s.setGpr r v).ibatU = s.ibatU := rfl
@[simp] theorem State.setGpr_ibatL (s : State) (r : RegNum) (v : DWord) :
    (s.setGpr r v).ibatL = s.ibatL := rfl
@[simp] theorem State.setGpr_dbatU (s : State) (r : RegNum) (v : DWord) :
    (s.setGpr r v).dbatU = s.dbatU := rfl
@[simp] theorem State.setGpr_dbatL (s : State) (r : RegNum) (v : DWord) :
    (s.setGpr r v).dbatL = s.dbatL := rfl
@[simp] theorem State.setGpr_sdr1 (s : State) (r : RegNum) (v : DWord) :
    (s.setGpr r v).sdr1 = s.sdr1 := rfl
@[simp] theorem State.setGpr_asr (s : State) (r : RegNum) (v : DWord) :
    (s.setGpr r v).asr = s.asr := rfl
@[simp] theorem State.setGpr_sr (s : State) (r : RegNum) (v : DWord) :
    (s.setGpr r v).sr = s.sr := rfl
@[simp] theorem State.setGpr_dar (s : State) (r : RegNum) (v : DWord) :
    (s.setGpr r v).dar = s.dar := rfl
@[simp] theorem State.setGpr_sprg (s : State) (r : RegNum) (v : DWord) :
    (s.setGpr r v).sprg = s.sprg := rfl
@[simp] theorem State.setGpr_dsisr (s : State) (r : RegNum) (v : DWord) :
    (s.setGpr r v).dsisr = s.dsisr := rfl
@[simp] theorem State.setGpr_srr0 (s : State) (r : RegNum) (v : DWord) :
    (s.setGpr r v).srr0 = s.srr0 := rfl
@[simp] theorem State.setGpr_srr1 (s : State) (r : RegNum) (v : DWord) :
    (s.setGpr r v).srr1 = s.srr1 := rfl
@[simp] theorem State.setGpr_fpecr (s : State) (r : RegNum) (v : DWord) :
    (s.setGpr r v).fpecr = s.fpecr := rfl
@[simp] theorem State.setGpr_dec (s : State) (r : RegNum) (v : DWord) :
    (s.setGpr r v).dec = s.dec := rfl
@[simp] theorem State.setGpr_dabr (s : State) (r : RegNum) (v : DWord) :
    (s.setGpr r v).dabr = s.dabr := rfl
@[simp] theorem State.setGpr_ear (s : State) (r : RegNum) (v : DWord) :
    (s.setGpr r v).ear = s.ear := rfl
@[simp] theorem State.setGpr_pir (s : State) (r : RegNum) (v : DWord) :
    (s.setGpr r v).pir = s.pir := rfl
@[simp] theorem State.setGpr_decRequest (s : State) (r : RegNum) (v : DWord) :
    (s.setGpr r v).decRequest = s.decRequest := rfl
@[simp] theorem State.setGpr_pc (s : State) (r : RegNum) (v : DWord) :
    (s.setGpr r v).pc = s.pc := rfl
@[simp] theorem State.setGpr_mem (s : State) (r : RegNum) (v : DWord) :
    (s.setGpr r v).mem = s.mem := rfl
@[simp] theorem State.setGpr_checkstop (s : State) (r : RegNum) (v : DWord) :
    (s.setGpr r v).checkstop = s.checkstop := rfl
@[simp] theorem State.setGpr_storedSinceSync (s : State) (r : RegNum) (v : DWord) :
    (s.setGpr r v).storedSinceSync = s.storedSinceSync := rfl
@[simp] theorem State.setGpr_inputs (s : State) (r : RegNum) (v : DWord) :
    (s.setGpr r v).inputs = s.inputs := rfl
@[simp] theorem State.setGpr_extReplies (s : State) (r : RegNum) (v : DWord) :
    (s.setGpr r v).extReplies = s.extReplies := rfl
@[simp] theorem State.setGpr_extSent (s : State) (r : RegNum) (v : DWord) :
    (s.setGpr r v).extSent = s.extSent := rfl
@[simp] theorem State.setGpr_lastExc (s : State) (r : RegNum) (v : DWord) :
    (s.setGpr r v).lastExc = s.lastExc := rfl
@[simp] theorem State.setGpr_draws (s : State) (r : RegNum) (v : DWord) :
    (s.setGpr r v).draws = s.draws := rfl

/-! ## State.setFpr -/

@[simp] theorem State.setFpr_cfg (s : State) (r : RegNum) (v : DWord) :
    (s.setFpr r v).cfg = s.cfg := rfl
@[simp] theorem State.setFpr_gpr (s : State) (r : RegNum) (v : DWord) :
    (s.setFpr r v).gpr = s.gpr := rfl
@[simp] theorem State.setFpr_fpr (s : State) (r : RegNum) (v : DWord) :
    (s.setFpr r v).fpr = s.fpr.set r.toNat v r.isLt := rfl
@[simp] theorem State.setFpr_cr (s : State) (r : RegNum) (v : DWord) :
    (s.setFpr r v).cr = s.cr := rfl
@[simp] theorem State.setFpr_fpscr (s : State) (r : RegNum) (v : DWord) :
    (s.setFpr r v).fpscr = s.fpscr := rfl
@[simp] theorem State.setFpr_xer (s : State) (r : RegNum) (v : DWord) :
    (s.setFpr r v).xer = s.xer := rfl
@[simp] theorem State.setFpr_lr (s : State) (r : RegNum) (v : DWord) :
    (s.setFpr r v).lr = s.lr := rfl
@[simp] theorem State.setFpr_ctr (s : State) (r : RegNum) (v : DWord) :
    (s.setFpr r v).ctr = s.ctr := rfl
@[simp] theorem State.setFpr_tbu (s : State) (r : RegNum) (v : DWord) :
    (s.setFpr r v).tbu = s.tbu := rfl
@[simp] theorem State.setFpr_tbl (s : State) (r : RegNum) (v : DWord) :
    (s.setFpr r v).tbl = s.tbl := rfl
@[simp] theorem State.setFpr_msr (s : State) (r : RegNum) (v : DWord) :
    (s.setFpr r v).msr = s.msr := rfl
@[simp] theorem State.setFpr_ibatU (s : State) (r : RegNum) (v : DWord) :
    (s.setFpr r v).ibatU = s.ibatU := rfl
@[simp] theorem State.setFpr_ibatL (s : State) (r : RegNum) (v : DWord) :
    (s.setFpr r v).ibatL = s.ibatL := rfl
@[simp] theorem State.setFpr_dbatU (s : State) (r : RegNum) (v : DWord) :
    (s.setFpr r v).dbatU = s.dbatU := rfl
@[simp] theorem State.setFpr_dbatL (s : State) (r : RegNum) (v : DWord) :
    (s.setFpr r v).dbatL = s.dbatL := rfl
@[simp] theorem State.setFpr_sdr1 (s : State) (r : RegNum) (v : DWord) :
    (s.setFpr r v).sdr1 = s.sdr1 := rfl
@[simp] theorem State.setFpr_asr (s : State) (r : RegNum) (v : DWord) :
    (s.setFpr r v).asr = s.asr := rfl
@[simp] theorem State.setFpr_sr (s : State) (r : RegNum) (v : DWord) :
    (s.setFpr r v).sr = s.sr := rfl
@[simp] theorem State.setFpr_dar (s : State) (r : RegNum) (v : DWord) :
    (s.setFpr r v).dar = s.dar := rfl
@[simp] theorem State.setFpr_sprg (s : State) (r : RegNum) (v : DWord) :
    (s.setFpr r v).sprg = s.sprg := rfl
@[simp] theorem State.setFpr_dsisr (s : State) (r : RegNum) (v : DWord) :
    (s.setFpr r v).dsisr = s.dsisr := rfl
@[simp] theorem State.setFpr_srr0 (s : State) (r : RegNum) (v : DWord) :
    (s.setFpr r v).srr0 = s.srr0 := rfl
@[simp] theorem State.setFpr_srr1 (s : State) (r : RegNum) (v : DWord) :
    (s.setFpr r v).srr1 = s.srr1 := rfl
@[simp] theorem State.setFpr_fpecr (s : State) (r : RegNum) (v : DWord) :
    (s.setFpr r v).fpecr = s.fpecr := rfl
@[simp] theorem State.setFpr_dec (s : State) (r : RegNum) (v : DWord) :
    (s.setFpr r v).dec = s.dec := rfl
@[simp] theorem State.setFpr_dabr (s : State) (r : RegNum) (v : DWord) :
    (s.setFpr r v).dabr = s.dabr := rfl
@[simp] theorem State.setFpr_ear (s : State) (r : RegNum) (v : DWord) :
    (s.setFpr r v).ear = s.ear := rfl
@[simp] theorem State.setFpr_pir (s : State) (r : RegNum) (v : DWord) :
    (s.setFpr r v).pir = s.pir := rfl
@[simp] theorem State.setFpr_decRequest (s : State) (r : RegNum) (v : DWord) :
    (s.setFpr r v).decRequest = s.decRequest := rfl
@[simp] theorem State.setFpr_pc (s : State) (r : RegNum) (v : DWord) :
    (s.setFpr r v).pc = s.pc := rfl
@[simp] theorem State.setFpr_mem (s : State) (r : RegNum) (v : DWord) :
    (s.setFpr r v).mem = s.mem := rfl
@[simp] theorem State.setFpr_checkstop (s : State) (r : RegNum) (v : DWord) :
    (s.setFpr r v).checkstop = s.checkstop := rfl
@[simp] theorem State.setFpr_storedSinceSync (s : State) (r : RegNum) (v : DWord) :
    (s.setFpr r v).storedSinceSync = s.storedSinceSync := rfl
@[simp] theorem State.setFpr_inputs (s : State) (r : RegNum) (v : DWord) :
    (s.setFpr r v).inputs = s.inputs := rfl
@[simp] theorem State.setFpr_extReplies (s : State) (r : RegNum) (v : DWord) :
    (s.setFpr r v).extReplies = s.extReplies := rfl
@[simp] theorem State.setFpr_extSent (s : State) (r : RegNum) (v : DWord) :
    (s.setFpr r v).extSent = s.extSent := rfl
@[simp] theorem State.setFpr_lastExc (s : State) (r : RegNum) (v : DWord) :
    (s.setFpr r v).lastExc = s.lastExc := rfl
@[simp] theorem State.setFpr_draws (s : State) (r : RegNum) (v : DWord) :
    (s.setFpr r v).draws = s.draws := rfl

/-! ## State.setCa -/

@[simp] theorem State.setCa_cfg (s : State) (v : Bool) :
    (s.setCa v).cfg = s.cfg := rfl
@[simp] theorem State.setCa_gpr (s : State) (v : Bool) :
    (s.setCa v).gpr = s.gpr := rfl
@[simp] theorem State.setCa_fpr (s : State) (v : Bool) :
    (s.setCa v).fpr = s.fpr := rfl
@[simp] theorem State.setCa_cr (s : State) (v : Bool) :
    (s.setCa v).cr = s.cr := rfl
@[simp] theorem State.setCa_fpscr (s : State) (v : Bool) :
    (s.setCa v).fpscr = s.fpscr := rfl
@[simp] theorem State.setCa_xer (s : State) (v : Bool) :
    (s.setCa v).xer = putBit s.xer 29 v := rfl
@[simp] theorem State.setCa_lr (s : State) (v : Bool) :
    (s.setCa v).lr = s.lr := rfl
@[simp] theorem State.setCa_ctr (s : State) (v : Bool) :
    (s.setCa v).ctr = s.ctr := rfl
@[simp] theorem State.setCa_tbu (s : State) (v : Bool) :
    (s.setCa v).tbu = s.tbu := rfl
@[simp] theorem State.setCa_tbl (s : State) (v : Bool) :
    (s.setCa v).tbl = s.tbl := rfl
@[simp] theorem State.setCa_msr (s : State) (v : Bool) :
    (s.setCa v).msr = s.msr := rfl
@[simp] theorem State.setCa_ibatU (s : State) (v : Bool) :
    (s.setCa v).ibatU = s.ibatU := rfl
@[simp] theorem State.setCa_ibatL (s : State) (v : Bool) :
    (s.setCa v).ibatL = s.ibatL := rfl
@[simp] theorem State.setCa_dbatU (s : State) (v : Bool) :
    (s.setCa v).dbatU = s.dbatU := rfl
@[simp] theorem State.setCa_dbatL (s : State) (v : Bool) :
    (s.setCa v).dbatL = s.dbatL := rfl
@[simp] theorem State.setCa_sdr1 (s : State) (v : Bool) :
    (s.setCa v).sdr1 = s.sdr1 := rfl
@[simp] theorem State.setCa_asr (s : State) (v : Bool) :
    (s.setCa v).asr = s.asr := rfl
@[simp] theorem State.setCa_sr (s : State) (v : Bool) :
    (s.setCa v).sr = s.sr := rfl
@[simp] theorem State.setCa_dar (s : State) (v : Bool) :
    (s.setCa v).dar = s.dar := rfl
@[simp] theorem State.setCa_sprg (s : State) (v : Bool) :
    (s.setCa v).sprg = s.sprg := rfl
@[simp] theorem State.setCa_dsisr (s : State) (v : Bool) :
    (s.setCa v).dsisr = s.dsisr := rfl
@[simp] theorem State.setCa_srr0 (s : State) (v : Bool) :
    (s.setCa v).srr0 = s.srr0 := rfl
@[simp] theorem State.setCa_srr1 (s : State) (v : Bool) :
    (s.setCa v).srr1 = s.srr1 := rfl
@[simp] theorem State.setCa_fpecr (s : State) (v : Bool) :
    (s.setCa v).fpecr = s.fpecr := rfl
@[simp] theorem State.setCa_dec (s : State) (v : Bool) :
    (s.setCa v).dec = s.dec := rfl
@[simp] theorem State.setCa_dabr (s : State) (v : Bool) :
    (s.setCa v).dabr = s.dabr := rfl
@[simp] theorem State.setCa_ear (s : State) (v : Bool) :
    (s.setCa v).ear = s.ear := rfl
@[simp] theorem State.setCa_pir (s : State) (v : Bool) :
    (s.setCa v).pir = s.pir := rfl
@[simp] theorem State.setCa_decRequest (s : State) (v : Bool) :
    (s.setCa v).decRequest = s.decRequest := rfl
@[simp] theorem State.setCa_pc (s : State) (v : Bool) :
    (s.setCa v).pc = s.pc := rfl
@[simp] theorem State.setCa_mem (s : State) (v : Bool) :
    (s.setCa v).mem = s.mem := rfl
@[simp] theorem State.setCa_checkstop (s : State) (v : Bool) :
    (s.setCa v).checkstop = s.checkstop := rfl
@[simp] theorem State.setCa_storedSinceSync (s : State) (v : Bool) :
    (s.setCa v).storedSinceSync = s.storedSinceSync := rfl
@[simp] theorem State.setCa_inputs (s : State) (v : Bool) :
    (s.setCa v).inputs = s.inputs := rfl
@[simp] theorem State.setCa_extReplies (s : State) (v : Bool) :
    (s.setCa v).extReplies = s.extReplies := rfl
@[simp] theorem State.setCa_extSent (s : State) (v : Bool) :
    (s.setCa v).extSent = s.extSent := rfl
@[simp] theorem State.setCa_lastExc (s : State) (v : Bool) :
    (s.setCa v).lastExc = s.lastExc := rfl
@[simp] theorem State.setCa_draws (s : State) (v : Bool) :
    (s.setCa v).draws = s.draws := rfl

/-! ## State.setCrField -/

@[simp] theorem State.setCrField_cfg (s : State) (n : FieldNum) (v : BitVec 4) :
    (s.setCrField n v).cfg = s.cfg := rfl
@[simp] theorem State.setCrField_gpr (s : State) (n : FieldNum) (v : BitVec 4) :
    (s.setCrField n v).gpr = s.gpr := rfl
@[simp] theorem State.setCrField_fpr (s : State) (n : FieldNum) (v : BitVec 4) :
    (s.setCrField n v).fpr = s.fpr := rfl
@[simp] theorem State.setCrField_cr (s : State) (n : FieldNum) (v : BitVec 4) :
    (s.setCrField n v).cr = setField4 s.cr n v := rfl
@[simp] theorem State.setCrField_fpscr (s : State) (n : FieldNum) (v : BitVec 4) :
    (s.setCrField n v).fpscr = s.fpscr := rfl
@[simp] theorem State.setCrField_xer (s : State) (n : FieldNum) (v : BitVec 4) :
    (s.setCrField n v).xer = s.xer := rfl
@[simp] theorem State.setCrField_lr (s : State) (n : FieldNum) (v : BitVec 4) :
    (s.setCrField n v).lr = s.lr := rfl
@[simp] theorem State.setCrField_ctr (s : State) (n : FieldNum) (v : BitVec 4) :
    (s.setCrField n v).ctr = s.ctr := rfl
@[simp] theorem State.setCrField_tbu (s : State) (n : FieldNum) (v : BitVec 4) :
    (s.setCrField n v).tbu = s.tbu := rfl
@[simp] theorem State.setCrField_tbl (s : State) (n : FieldNum) (v : BitVec 4) :
    (s.setCrField n v).tbl = s.tbl := rfl
@[simp] theorem State.setCrField_msr (s : State) (n : FieldNum) (v : BitVec 4) :
    (s.setCrField n v).msr = s.msr := rfl
@[simp] theorem State.setCrField_ibatU (s : State) (n : FieldNum) (v : BitVec 4) :
    (s.setCrField n v).ibatU = s.ibatU := rfl
@[simp] theorem State.setCrField_ibatL (s : State) (n : FieldNum) (v : BitVec 4) :
    (s.setCrField n v).ibatL = s.ibatL := rfl
@[simp] theorem State.setCrField_dbatU (s : State) (n : FieldNum) (v : BitVec 4) :
    (s.setCrField n v).dbatU = s.dbatU := rfl
@[simp] theorem State.setCrField_dbatL (s : State) (n : FieldNum) (v : BitVec 4) :
    (s.setCrField n v).dbatL = s.dbatL := rfl
@[simp] theorem State.setCrField_sdr1 (s : State) (n : FieldNum) (v : BitVec 4) :
    (s.setCrField n v).sdr1 = s.sdr1 := rfl
@[simp] theorem State.setCrField_asr (s : State) (n : FieldNum) (v : BitVec 4) :
    (s.setCrField n v).asr = s.asr := rfl
@[simp] theorem State.setCrField_sr (s : State) (n : FieldNum) (v : BitVec 4) :
    (s.setCrField n v).sr = s.sr := rfl
@[simp] theorem State.setCrField_dar (s : State) (n : FieldNum) (v : BitVec 4) :
    (s.setCrField n v).dar = s.dar := rfl
@[simp] theorem State.setCrField_sprg (s : State) (n : FieldNum) (v : BitVec 4) :
    (s.setCrField n v).sprg = s.sprg := rfl
@[simp] theorem State.setCrField_dsisr (s : State) (n : FieldNum) (v : BitVec 4) :
    (s.setCrField n v).dsisr = s.dsisr := rfl
@[simp] theorem State.setCrField_srr0 (s : State) (n : FieldNum) (v : BitVec 4) :
    (s.setCrField n v).srr0 = s.srr0 := rfl
@[simp] theorem State.setCrField_srr1 (s : State) (n : FieldNum) (v : BitVec 4) :
    (s.setCrField n v).srr1 = s.srr1 := rfl
@[simp] theorem State.setCrField_fpecr (s : State) (n : FieldNum) (v : BitVec 4) :
    (s.setCrField n v).fpecr = s.fpecr := rfl
@[simp] theorem State.setCrField_dec (s : State) (n : FieldNum) (v : BitVec 4) :
    (s.setCrField n v).dec = s.dec := rfl
@[simp] theorem State.setCrField_dabr (s : State) (n : FieldNum) (v : BitVec 4) :
    (s.setCrField n v).dabr = s.dabr := rfl
@[simp] theorem State.setCrField_ear (s : State) (n : FieldNum) (v : BitVec 4) :
    (s.setCrField n v).ear = s.ear := rfl
@[simp] theorem State.setCrField_pir (s : State) (n : FieldNum) (v : BitVec 4) :
    (s.setCrField n v).pir = s.pir := rfl
@[simp] theorem State.setCrField_decRequest (s : State) (n : FieldNum) (v : BitVec 4) :
    (s.setCrField n v).decRequest = s.decRequest := rfl
@[simp] theorem State.setCrField_pc (s : State) (n : FieldNum) (v : BitVec 4) :
    (s.setCrField n v).pc = s.pc := rfl
@[simp] theorem State.setCrField_mem (s : State) (n : FieldNum) (v : BitVec 4) :
    (s.setCrField n v).mem = s.mem := rfl
@[simp] theorem State.setCrField_checkstop (s : State) (n : FieldNum) (v : BitVec 4) :
    (s.setCrField n v).checkstop = s.checkstop := rfl
@[simp] theorem State.setCrField_storedSinceSync (s : State) (n : FieldNum) (v : BitVec 4) :
    (s.setCrField n v).storedSinceSync = s.storedSinceSync := rfl
@[simp] theorem State.setCrField_inputs (s : State) (n : FieldNum) (v : BitVec 4) :
    (s.setCrField n v).inputs = s.inputs := rfl
@[simp] theorem State.setCrField_extReplies (s : State) (n : FieldNum) (v : BitVec 4) :
    (s.setCrField n v).extReplies = s.extReplies := rfl
@[simp] theorem State.setCrField_extSent (s : State) (n : FieldNum) (v : BitVec 4) :
    (s.setCrField n v).extSent = s.extSent := rfl
@[simp] theorem State.setCrField_lastExc (s : State) (n : FieldNum) (v : BitVec 4) :
    (s.setCrField n v).lastExc = s.lastExc := rfl
@[simp] theorem State.setCrField_draws (s : State) (n : FieldNum) (v : BitVec 4) :
    (s.setCrField n v).draws = s.draws := rfl

/-! ## State.setSr -/

@[simp] theorem State.setSr_cfg (s : State) (i : BitVec 4) (w : Word) :
    (s.setSr i w).cfg = s.cfg := rfl
@[simp] theorem State.setSr_gpr (s : State) (i : BitVec 4) (w : Word) :
    (s.setSr i w).gpr = s.gpr := rfl
@[simp] theorem State.setSr_fpr (s : State) (i : BitVec 4) (w : Word) :
    (s.setSr i w).fpr = s.fpr := rfl
@[simp] theorem State.setSr_cr (s : State) (i : BitVec 4) (w : Word) :
    (s.setSr i w).cr = s.cr := rfl
@[simp] theorem State.setSr_fpscr (s : State) (i : BitVec 4) (w : Word) :
    (s.setSr i w).fpscr = s.fpscr := rfl
@[simp] theorem State.setSr_xer (s : State) (i : BitVec 4) (w : Word) :
    (s.setSr i w).xer = s.xer := rfl
@[simp] theorem State.setSr_lr (s : State) (i : BitVec 4) (w : Word) :
    (s.setSr i w).lr = s.lr := rfl
@[simp] theorem State.setSr_ctr (s : State) (i : BitVec 4) (w : Word) :
    (s.setSr i w).ctr = s.ctr := rfl
@[simp] theorem State.setSr_tbu (s : State) (i : BitVec 4) (w : Word) :
    (s.setSr i w).tbu = s.tbu := rfl
@[simp] theorem State.setSr_tbl (s : State) (i : BitVec 4) (w : Word) :
    (s.setSr i w).tbl = s.tbl := rfl
@[simp] theorem State.setSr_msr (s : State) (i : BitVec 4) (w : Word) :
    (s.setSr i w).msr = s.msr := rfl
@[simp] theorem State.setSr_ibatU (s : State) (i : BitVec 4) (w : Word) :
    (s.setSr i w).ibatU = s.ibatU := rfl
@[simp] theorem State.setSr_ibatL (s : State) (i : BitVec 4) (w : Word) :
    (s.setSr i w).ibatL = s.ibatL := rfl
@[simp] theorem State.setSr_dbatU (s : State) (i : BitVec 4) (w : Word) :
    (s.setSr i w).dbatU = s.dbatU := rfl
@[simp] theorem State.setSr_dbatL (s : State) (i : BitVec 4) (w : Word) :
    (s.setSr i w).dbatL = s.dbatL := rfl
@[simp] theorem State.setSr_sdr1 (s : State) (i : BitVec 4) (w : Word) :
    (s.setSr i w).sdr1 = s.sdr1 := rfl
@[simp] theorem State.setSr_asr (s : State) (i : BitVec 4) (w : Word) :
    (s.setSr i w).asr = s.asr := rfl
@[simp] theorem State.setSr_sr (s : State) (i : BitVec 4) (w : Word) :
    (s.setSr i w).sr = s.sr.set i.toNat w i.isLt := rfl
@[simp] theorem State.setSr_dar (s : State) (i : BitVec 4) (w : Word) :
    (s.setSr i w).dar = s.dar := rfl
@[simp] theorem State.setSr_sprg (s : State) (i : BitVec 4) (w : Word) :
    (s.setSr i w).sprg = s.sprg := rfl
@[simp] theorem State.setSr_dsisr (s : State) (i : BitVec 4) (w : Word) :
    (s.setSr i w).dsisr = s.dsisr := rfl
@[simp] theorem State.setSr_srr0 (s : State) (i : BitVec 4) (w : Word) :
    (s.setSr i w).srr0 = s.srr0 := rfl
@[simp] theorem State.setSr_srr1 (s : State) (i : BitVec 4) (w : Word) :
    (s.setSr i w).srr1 = s.srr1 := rfl
@[simp] theorem State.setSr_fpecr (s : State) (i : BitVec 4) (w : Word) :
    (s.setSr i w).fpecr = s.fpecr := rfl
@[simp] theorem State.setSr_dec (s : State) (i : BitVec 4) (w : Word) :
    (s.setSr i w).dec = s.dec := rfl
@[simp] theorem State.setSr_dabr (s : State) (i : BitVec 4) (w : Word) :
    (s.setSr i w).dabr = s.dabr := rfl
@[simp] theorem State.setSr_ear (s : State) (i : BitVec 4) (w : Word) :
    (s.setSr i w).ear = s.ear := rfl
@[simp] theorem State.setSr_pir (s : State) (i : BitVec 4) (w : Word) :
    (s.setSr i w).pir = s.pir := rfl
@[simp] theorem State.setSr_decRequest (s : State) (i : BitVec 4) (w : Word) :
    (s.setSr i w).decRequest = s.decRequest := rfl
@[simp] theorem State.setSr_pc (s : State) (i : BitVec 4) (w : Word) :
    (s.setSr i w).pc = s.pc := rfl
@[simp] theorem State.setSr_mem (s : State) (i : BitVec 4) (w : Word) :
    (s.setSr i w).mem = s.mem := rfl
@[simp] theorem State.setSr_checkstop (s : State) (i : BitVec 4) (w : Word) :
    (s.setSr i w).checkstop = s.checkstop := rfl
@[simp] theorem State.setSr_storedSinceSync (s : State) (i : BitVec 4) (w : Word) :
    (s.setSr i w).storedSinceSync = s.storedSinceSync := rfl
@[simp] theorem State.setSr_inputs (s : State) (i : BitVec 4) (w : Word) :
    (s.setSr i w).inputs = s.inputs := rfl
@[simp] theorem State.setSr_extReplies (s : State) (i : BitVec 4) (w : Word) :
    (s.setSr i w).extReplies = s.extReplies := rfl
@[simp] theorem State.setSr_extSent (s : State) (i : BitVec 4) (w : Word) :
    (s.setSr i w).extSent = s.extSent := rfl
@[simp] theorem State.setSr_lastExc (s : State) (i : BitVec 4) (w : Word) :
    (s.setSr i w).lastExc = s.lastExc := rfl
@[simp] theorem State.setSr_draws (s : State) (i : BitVec 4) (w : Word) :
    (s.setSr i w).draws = s.draws := rfl

/-! ## State.writeFpscr -/

@[simp] theorem State.writeFpscr_cfg (s : State) (m v : Word) :
    (s.writeFpscr m v).cfg = s.cfg := rfl
@[simp] theorem State.writeFpscr_gpr (s : State) (m v : Word) :
    (s.writeFpscr m v).gpr = s.gpr := rfl
@[simp] theorem State.writeFpscr_fpr (s : State) (m v : Word) :
    (s.writeFpscr m v).fpr = s.fpr := rfl
@[simp] theorem State.writeFpscr_cr (s : State) (m v : Word) :
    (s.writeFpscr m v).cr = s.cr := rfl
@[simp] theorem State.writeFpscr_fpscr (s : State) (m v : Word) :
    (s.writeFpscr m v).fpscr = fpscrMoved s.fpscr m v := rfl
@[simp] theorem State.writeFpscr_xer (s : State) (m v : Word) :
    (s.writeFpscr m v).xer = s.xer := rfl
@[simp] theorem State.writeFpscr_lr (s : State) (m v : Word) :
    (s.writeFpscr m v).lr = s.lr := rfl
@[simp] theorem State.writeFpscr_ctr (s : State) (m v : Word) :
    (s.writeFpscr m v).ctr = s.ctr := rfl
@[simp] theorem State.writeFpscr_tbu (s : State) (m v : Word) :
    (s.writeFpscr m v).tbu = s.tbu := rfl
@[simp] theorem State.writeFpscr_tbl (s : State) (m v : Word) :
    (s.writeFpscr m v).tbl = s.tbl := rfl
@[simp] theorem State.writeFpscr_msr (s : State) (m v : Word) :
    (s.writeFpscr m v).msr = s.msr := rfl
@[simp] theorem State.writeFpscr_ibatU (s : State) (m v : Word) :
    (s.writeFpscr m v).ibatU = s.ibatU := rfl
@[simp] theorem State.writeFpscr_ibatL (s : State) (m v : Word) :
    (s.writeFpscr m v).ibatL = s.ibatL := rfl
@[simp] theorem State.writeFpscr_dbatU (s : State) (m v : Word) :
    (s.writeFpscr m v).dbatU = s.dbatU := rfl
@[simp] theorem State.writeFpscr_dbatL (s : State) (m v : Word) :
    (s.writeFpscr m v).dbatL = s.dbatL := rfl
@[simp] theorem State.writeFpscr_sdr1 (s : State) (m v : Word) :
    (s.writeFpscr m v).sdr1 = s.sdr1 := rfl
@[simp] theorem State.writeFpscr_asr (s : State) (m v : Word) :
    (s.writeFpscr m v).asr = s.asr := rfl
@[simp] theorem State.writeFpscr_sr (s : State) (m v : Word) :
    (s.writeFpscr m v).sr = s.sr := rfl
@[simp] theorem State.writeFpscr_dar (s : State) (m v : Word) :
    (s.writeFpscr m v).dar = s.dar := rfl
@[simp] theorem State.writeFpscr_sprg (s : State) (m v : Word) :
    (s.writeFpscr m v).sprg = s.sprg := rfl
@[simp] theorem State.writeFpscr_dsisr (s : State) (m v : Word) :
    (s.writeFpscr m v).dsisr = s.dsisr := rfl
@[simp] theorem State.writeFpscr_srr0 (s : State) (m v : Word) :
    (s.writeFpscr m v).srr0 = s.srr0 := rfl
@[simp] theorem State.writeFpscr_srr1 (s : State) (m v : Word) :
    (s.writeFpscr m v).srr1 = s.srr1 := rfl
@[simp] theorem State.writeFpscr_fpecr (s : State) (m v : Word) :
    (s.writeFpscr m v).fpecr = s.fpecr := rfl
@[simp] theorem State.writeFpscr_dec (s : State) (m v : Word) :
    (s.writeFpscr m v).dec = s.dec := rfl
@[simp] theorem State.writeFpscr_dabr (s : State) (m v : Word) :
    (s.writeFpscr m v).dabr = s.dabr := rfl
@[simp] theorem State.writeFpscr_ear (s : State) (m v : Word) :
    (s.writeFpscr m v).ear = s.ear := rfl
@[simp] theorem State.writeFpscr_pir (s : State) (m v : Word) :
    (s.writeFpscr m v).pir = s.pir := rfl
@[simp] theorem State.writeFpscr_decRequest (s : State) (m v : Word) :
    (s.writeFpscr m v).decRequest = s.decRequest := rfl
@[simp] theorem State.writeFpscr_pc (s : State) (m v : Word) :
    (s.writeFpscr m v).pc = s.pc := rfl
@[simp] theorem State.writeFpscr_mem (s : State) (m v : Word) :
    (s.writeFpscr m v).mem = s.mem := rfl
@[simp] theorem State.writeFpscr_checkstop (s : State) (m v : Word) :
    (s.writeFpscr m v).checkstop = s.checkstop := rfl
@[simp] theorem State.writeFpscr_storedSinceSync (s : State) (m v : Word) :
    (s.writeFpscr m v).storedSinceSync = s.storedSinceSync := rfl
@[simp] theorem State.writeFpscr_inputs (s : State) (m v : Word) :
    (s.writeFpscr m v).inputs = s.inputs := rfl
@[simp] theorem State.writeFpscr_extReplies (s : State) (m v : Word) :
    (s.writeFpscr m v).extReplies = s.extReplies := rfl
@[simp] theorem State.writeFpscr_extSent (s : State) (m v : Word) :
    (s.writeFpscr m v).extSent = s.extSent := rfl
@[simp] theorem State.writeFpscr_lastExc (s : State) (m v : Word) :
    (s.writeFpscr m v).lastExc = s.lastExc := rfl
@[simp] theorem State.writeFpscr_draws (s : State) (m v : Word) :
    (s.writeFpscr m v).draws = s.draws := rfl

/-! ## State.take -/

@[simp] theorem State.take_cfg (s : State) (e : Exc) (a b : DWord) :
    (s.take e a b).cfg = s.cfg := rfl
@[simp] theorem State.take_gpr (s : State) (e : Exc) (a b : DWord) :
    (s.take e a b).gpr = s.gpr := rfl
@[simp] theorem State.take_fpr (s : State) (e : Exc) (a b : DWord) :
    (s.take e a b).fpr = s.fpr := rfl
@[simp] theorem State.take_cr (s : State) (e : Exc) (a b : DWord) :
    (s.take e a b).cr = s.cr := rfl
@[simp] theorem State.take_fpscr (s : State) (e : Exc) (a b : DWord) :
    (s.take e a b).fpscr = s.fpscr := rfl
@[simp] theorem State.take_xer (s : State) (e : Exc) (a b : DWord) :
    (s.take e a b).xer = s.xer := rfl
@[simp] theorem State.take_lr (s : State) (e : Exc) (a b : DWord) :
    (s.take e a b).lr = s.lr := rfl
@[simp] theorem State.take_ctr (s : State) (e : Exc) (a b : DWord) :
    (s.take e a b).ctr = s.ctr := rfl
@[simp] theorem State.take_tbu (s : State) (e : Exc) (a b : DWord) :
    (s.take e a b).tbu = s.tbu := rfl
@[simp] theorem State.take_tbl (s : State) (e : Exc) (a b : DWord) :
    (s.take e a b).tbl = s.tbl := rfl
@[simp] theorem State.take_msr (s : State) (e : Exc) (a b : DWord) :
    (s.take e a b).msr = s.x (msrAfterEntry s.cfg s.msr e) := rfl
@[simp] theorem State.take_ibatU (s : State) (e : Exc) (a b : DWord) :
    (s.take e a b).ibatU = s.ibatU := rfl
@[simp] theorem State.take_ibatL (s : State) (e : Exc) (a b : DWord) :
    (s.take e a b).ibatL = s.ibatL := rfl
@[simp] theorem State.take_dbatU (s : State) (e : Exc) (a b : DWord) :
    (s.take e a b).dbatU = s.dbatU := rfl
@[simp] theorem State.take_dbatL (s : State) (e : Exc) (a b : DWord) :
    (s.take e a b).dbatL = s.dbatL := rfl
@[simp] theorem State.take_sdr1 (s : State) (e : Exc) (a b : DWord) :
    (s.take e a b).sdr1 = s.sdr1 := rfl
@[simp] theorem State.take_asr (s : State) (e : Exc) (a b : DWord) :
    (s.take e a b).asr = s.asr := rfl
@[simp] theorem State.take_sr (s : State) (e : Exc) (a b : DWord) :
    (s.take e a b).sr = s.sr := rfl
@[simp] theorem State.take_dar (s : State) (e : Exc) (a b : DWord) :
    (s.take e a b).dar = s.dar := rfl
@[simp] theorem State.take_sprg (s : State) (e : Exc) (a b : DWord) :
    (s.take e a b).sprg = s.sprg := rfl
@[simp] theorem State.take_dsisr (s : State) (e : Exc) (a b : DWord) :
    (s.take e a b).dsisr = s.dsisr := rfl
@[simp] theorem State.take_srr0 (s : State) (e : Exc) (a b : DWord) :
    (s.take e a b).srr0 = wordAligned (s.ea a) := rfl
@[simp] theorem State.take_srr1 (s : State) (e : Exc) (a b : DWord) :
    (s.take e a b).srr1 = s.x (s.savedMsr b) := rfl
@[simp] theorem State.take_fpecr (s : State) (e : Exc) (a b : DWord) :
    (s.take e a b).fpecr = s.fpecr := rfl
@[simp] theorem State.take_dec (s : State) (e : Exc) (a b : DWord) :
    (s.take e a b).dec = s.dec := rfl
@[simp] theorem State.take_dabr (s : State) (e : Exc) (a b : DWord) :
    (s.take e a b).dabr = s.dabr := rfl
@[simp] theorem State.take_ear (s : State) (e : Exc) (a b : DWord) :
    (s.take e a b).ear = s.ear := rfl
@[simp] theorem State.take_pir (s : State) (e : Exc) (a b : DWord) :
    (s.take e a b).pir = s.pir := rfl
@[simp] theorem State.take_decRequest (s : State) (e : Exc) (a b : DWord) :
    (s.take e a b).decRequest = if e = .decrementer then false else s.decRequest := rfl
@[simp] theorem State.take_pc (s : State) (e : Exc) (a b : DWord) :
    (s.take e a b).pc = s.entryPc e := rfl
@[simp] theorem State.take_mem (s : State) (e : Exc) (a b : DWord) :
    (s.take e a b).mem = s.mem := rfl
@[simp] theorem State.take_checkstop (s : State) (e : Exc) (a b : DWord) :
    (s.take e a b).checkstop = s.checkstop := rfl
@[simp] theorem State.take_storedSinceSync (s : State) (e : Exc) (a b : DWord) :
    (s.take e a b).storedSinceSync = if s.excSynchronizes e then [] else s.storedSinceSync := rfl
@[simp] theorem State.take_inputs (s : State) (e : Exc) (a b : DWord) :
    (s.take e a b).inputs = s.inputs := rfl
@[simp] theorem State.take_extReplies (s : State) (e : Exc) (a b : DWord) :
    (s.take e a b).extReplies = s.extReplies := rfl
@[simp] theorem State.take_extSent (s : State) (e : Exc) (a b : DWord) :
    (s.take e a b).extSent = s.extSent := rfl
@[simp] theorem State.take_lastExc (s : State) (e : Exc) (a b : DWord) :
    (s.take e a b).lastExc = some e := rfl
@[simp] theorem State.take_draws (s : State) (e : Exc) (a b : DWord) :
    (s.take e a b).draws = s.draws := rfl

/-! ## State.storeBytes -/

@[simp] theorem State.storeBytes_cfg (s : State) (as : List DWord) (vs : List Byte) :
    (s.storeBytes as vs).cfg = s.cfg := rfl
@[simp] theorem State.storeBytes_gpr (s : State) (as : List DWord) (vs : List Byte) :
    (s.storeBytes as vs).gpr = s.gpr := rfl
@[simp] theorem State.storeBytes_fpr (s : State) (as : List DWord) (vs : List Byte) :
    (s.storeBytes as vs).fpr = s.fpr := rfl
@[simp] theorem State.storeBytes_cr (s : State) (as : List DWord) (vs : List Byte) :
    (s.storeBytes as vs).cr = s.cr := rfl
@[simp] theorem State.storeBytes_fpscr (s : State) (as : List DWord) (vs : List Byte) :
    (s.storeBytes as vs).fpscr = s.fpscr := rfl
@[simp] theorem State.storeBytes_xer (s : State) (as : List DWord) (vs : List Byte) :
    (s.storeBytes as vs).xer = s.xer := rfl
@[simp] theorem State.storeBytes_lr (s : State) (as : List DWord) (vs : List Byte) :
    (s.storeBytes as vs).lr = s.lr := rfl
@[simp] theorem State.storeBytes_ctr (s : State) (as : List DWord) (vs : List Byte) :
    (s.storeBytes as vs).ctr = s.ctr := rfl
@[simp] theorem State.storeBytes_tbu (s : State) (as : List DWord) (vs : List Byte) :
    (s.storeBytes as vs).tbu = s.tbu := rfl
@[simp] theorem State.storeBytes_tbl (s : State) (as : List DWord) (vs : List Byte) :
    (s.storeBytes as vs).tbl = s.tbl := rfl
@[simp] theorem State.storeBytes_msr (s : State) (as : List DWord) (vs : List Byte) :
    (s.storeBytes as vs).msr = s.msr := rfl
@[simp] theorem State.storeBytes_ibatU (s : State) (as : List DWord) (vs : List Byte) :
    (s.storeBytes as vs).ibatU = s.ibatU := rfl
@[simp] theorem State.storeBytes_ibatL (s : State) (as : List DWord) (vs : List Byte) :
    (s.storeBytes as vs).ibatL = s.ibatL := rfl
@[simp] theorem State.storeBytes_dbatU (s : State) (as : List DWord) (vs : List Byte) :
    (s.storeBytes as vs).dbatU = s.dbatU := rfl
@[simp] theorem State.storeBytes_dbatL (s : State) (as : List DWord) (vs : List Byte) :
    (s.storeBytes as vs).dbatL = s.dbatL := rfl
@[simp] theorem State.storeBytes_sdr1 (s : State) (as : List DWord) (vs : List Byte) :
    (s.storeBytes as vs).sdr1 = s.sdr1 := rfl
@[simp] theorem State.storeBytes_asr (s : State) (as : List DWord) (vs : List Byte) :
    (s.storeBytes as vs).asr = s.asr := rfl
@[simp] theorem State.storeBytes_sr (s : State) (as : List DWord) (vs : List Byte) :
    (s.storeBytes as vs).sr = s.sr := rfl
@[simp] theorem State.storeBytes_dar (s : State) (as : List DWord) (vs : List Byte) :
    (s.storeBytes as vs).dar = s.dar := rfl
@[simp] theorem State.storeBytes_sprg (s : State) (as : List DWord) (vs : List Byte) :
    (s.storeBytes as vs).sprg = s.sprg := rfl
@[simp] theorem State.storeBytes_dsisr (s : State) (as : List DWord) (vs : List Byte) :
    (s.storeBytes as vs).dsisr = s.dsisr := rfl
@[simp] theorem State.storeBytes_srr0 (s : State) (as : List DWord) (vs : List Byte) :
    (s.storeBytes as vs).srr0 = s.srr0 := rfl
@[simp] theorem State.storeBytes_srr1 (s : State) (as : List DWord) (vs : List Byte) :
    (s.storeBytes as vs).srr1 = s.srr1 := rfl
@[simp] theorem State.storeBytes_fpecr (s : State) (as : List DWord) (vs : List Byte) :
    (s.storeBytes as vs).fpecr = s.fpecr := rfl
@[simp] theorem State.storeBytes_dec (s : State) (as : List DWord) (vs : List Byte) :
    (s.storeBytes as vs).dec = s.dec := rfl
@[simp] theorem State.storeBytes_dabr (s : State) (as : List DWord) (vs : List Byte) :
    (s.storeBytes as vs).dabr = s.dabr := rfl
@[simp] theorem State.storeBytes_ear (s : State) (as : List DWord) (vs : List Byte) :
    (s.storeBytes as vs).ear = s.ear := rfl
@[simp] theorem State.storeBytes_pir (s : State) (as : List DWord) (vs : List Byte) :
    (s.storeBytes as vs).pir = s.pir := rfl
@[simp] theorem State.storeBytes_decRequest (s : State) (as : List DWord) (vs : List Byte) :
    (s.storeBytes as vs).decRequest = s.decRequest := rfl
@[simp] theorem State.storeBytes_pc (s : State) (as : List DWord) (vs : List Byte) :
    (s.storeBytes as vs).pc = s.pc := rfl
@[simp] theorem State.storeBytes_mem (s : State) (as : List DWord) (vs : List Byte) :
    (s.storeBytes as vs).mem = Memory.writeAll s.mem as vs := rfl
@[simp] theorem State.storeBytes_checkstop (s : State) (as : List DWord) (vs : List Byte) :
    (s.storeBytes as vs).checkstop = s.checkstop := rfl
@[simp] theorem State.storeBytes_storedSinceSync (s : State) (as : List DWord) (vs : List Byte) :
    (s.storeBytes as vs).storedSinceSync = as.map BitVec.toNat ++ s.storedSinceSync := rfl
@[simp] theorem State.storeBytes_inputs (s : State) (as : List DWord) (vs : List Byte) :
    (s.storeBytes as vs).inputs = s.inputs := rfl
@[simp] theorem State.storeBytes_extReplies (s : State) (as : List DWord) (vs : List Byte) :
    (s.storeBytes as vs).extReplies = s.extReplies := rfl
@[simp] theorem State.storeBytes_extSent (s : State) (as : List DWord) (vs : List Byte) :
    (s.storeBytes as vs).extSent = s.extSent := rfl
@[simp] theorem State.storeBytes_lastExc (s : State) (as : List DWord) (vs : List Byte) :
    (s.storeBytes as vs).lastExc = s.lastExc := rfl
@[simp] theorem State.storeBytes_draws (s : State) (as : List DWord) (vs : List Byte) :
    (s.storeBytes as vs).draws = s.draws := rfl

/-! ## State.branchEnd -/

@[simp] theorem State.branchEnd_cfg (s : State) (c : DWord) (lk t : Bool) (g : DWord) :
    (s.branchEnd c lk t g).cfg = s.cfg := rfl
@[simp] theorem State.branchEnd_gpr (s : State) (c : DWord) (lk t : Bool) (g : DWord) :
    (s.branchEnd c lk t g).gpr = s.gpr := rfl
@[simp] theorem State.branchEnd_fpr (s : State) (c : DWord) (lk t : Bool) (g : DWord) :
    (s.branchEnd c lk t g).fpr = s.fpr := rfl
@[simp] theorem State.branchEnd_cr (s : State) (c : DWord) (lk t : Bool) (g : DWord) :
    (s.branchEnd c lk t g).cr = s.cr := rfl
@[simp] theorem State.branchEnd_fpscr (s : State) (c : DWord) (lk t : Bool) (g : DWord) :
    (s.branchEnd c lk t g).fpscr = s.fpscr := rfl
@[simp] theorem State.branchEnd_xer (s : State) (c : DWord) (lk t : Bool) (g : DWord) :
    (s.branchEnd c lk t g).xer = s.xer := rfl
@[simp] theorem State.branchEnd_lr (s : State) (c : DWord) (lk t : Bool) (g : DWord) :
    (s.branchEnd c lk t g).lr = if lk then s.nextPc else s.lr := rfl
@[simp] theorem State.branchEnd_ctr (s : State) (c : DWord) (lk t : Bool) (g : DWord) :
    (s.branchEnd c lk t g).ctr = c := rfl
@[simp] theorem State.branchEnd_tbu (s : State) (c : DWord) (lk t : Bool) (g : DWord) :
    (s.branchEnd c lk t g).tbu = s.tbu := rfl
@[simp] theorem State.branchEnd_tbl (s : State) (c : DWord) (lk t : Bool) (g : DWord) :
    (s.branchEnd c lk t g).tbl = s.tbl := rfl
@[simp] theorem State.branchEnd_msr (s : State) (c : DWord) (lk t : Bool) (g : DWord) :
    (s.branchEnd c lk t g).msr = s.msr := rfl
@[simp] theorem State.branchEnd_ibatU (s : State) (c : DWord) (lk t : Bool) (g : DWord) :
    (s.branchEnd c lk t g).ibatU = s.ibatU := rfl
@[simp] theorem State.branchEnd_ibatL (s : State) (c : DWord) (lk t : Bool) (g : DWord) :
    (s.branchEnd c lk t g).ibatL = s.ibatL := rfl
@[simp] theorem State.branchEnd_dbatU (s : State) (c : DWord) (lk t : Bool) (g : DWord) :
    (s.branchEnd c lk t g).dbatU = s.dbatU := rfl
@[simp] theorem State.branchEnd_dbatL (s : State) (c : DWord) (lk t : Bool) (g : DWord) :
    (s.branchEnd c lk t g).dbatL = s.dbatL := rfl
@[simp] theorem State.branchEnd_sdr1 (s : State) (c : DWord) (lk t : Bool) (g : DWord) :
    (s.branchEnd c lk t g).sdr1 = s.sdr1 := rfl
@[simp] theorem State.branchEnd_asr (s : State) (c : DWord) (lk t : Bool) (g : DWord) :
    (s.branchEnd c lk t g).asr = s.asr := rfl
@[simp] theorem State.branchEnd_sr (s : State) (c : DWord) (lk t : Bool) (g : DWord) :
    (s.branchEnd c lk t g).sr = s.sr := rfl
@[simp] theorem State.branchEnd_dar (s : State) (c : DWord) (lk t : Bool) (g : DWord) :
    (s.branchEnd c lk t g).dar = s.dar := rfl
@[simp] theorem State.branchEnd_sprg (s : State) (c : DWord) (lk t : Bool) (g : DWord) :
    (s.branchEnd c lk t g).sprg = s.sprg := rfl
@[simp] theorem State.branchEnd_dsisr (s : State) (c : DWord) (lk t : Bool) (g : DWord) :
    (s.branchEnd c lk t g).dsisr = s.dsisr := rfl
@[simp] theorem State.branchEnd_srr0 (s : State) (c : DWord) (lk t : Bool) (g : DWord) :
    (s.branchEnd c lk t g).srr0 = s.srr0 := rfl
@[simp] theorem State.branchEnd_srr1 (s : State) (c : DWord) (lk t : Bool) (g : DWord) :
    (s.branchEnd c lk t g).srr1 = s.srr1 := rfl
@[simp] theorem State.branchEnd_fpecr (s : State) (c : DWord) (lk t : Bool) (g : DWord) :
    (s.branchEnd c lk t g).fpecr = s.fpecr := rfl
@[simp] theorem State.branchEnd_dec (s : State) (c : DWord) (lk t : Bool) (g : DWord) :
    (s.branchEnd c lk t g).dec = s.dec := rfl
@[simp] theorem State.branchEnd_dabr (s : State) (c : DWord) (lk t : Bool) (g : DWord) :
    (s.branchEnd c lk t g).dabr = s.dabr := rfl
@[simp] theorem State.branchEnd_ear (s : State) (c : DWord) (lk t : Bool) (g : DWord) :
    (s.branchEnd c lk t g).ear = s.ear := rfl
@[simp] theorem State.branchEnd_pir (s : State) (c : DWord) (lk t : Bool) (g : DWord) :
    (s.branchEnd c lk t g).pir = s.pir := rfl
@[simp] theorem State.branchEnd_decRequest (s : State) (c : DWord) (lk t : Bool) (g : DWord) :
    (s.branchEnd c lk t g).decRequest = s.decRequest := rfl
@[simp] theorem State.branchEnd_pc (s : State) (c : DWord) (lk t : Bool) (g : DWord) :
    (s.branchEnd c lk t g).pc = if t then g else s.nextPc := rfl
@[simp] theorem State.branchEnd_mem (s : State) (c : DWord) (lk t : Bool) (g : DWord) :
    (s.branchEnd c lk t g).mem = s.mem := rfl
@[simp] theorem State.branchEnd_checkstop (s : State) (c : DWord) (lk t : Bool) (g : DWord) :
    (s.branchEnd c lk t g).checkstop = s.checkstop := rfl
@[simp] theorem State.branchEnd_storedSinceSync (s : State) (c : DWord) (lk t : Bool) (g : DWord) :
    (s.branchEnd c lk t g).storedSinceSync = s.storedSinceSync := rfl
@[simp] theorem State.branchEnd_inputs (s : State) (c : DWord) (lk t : Bool) (g : DWord) :
    (s.branchEnd c lk t g).inputs = s.inputs := rfl
@[simp] theorem State.branchEnd_extReplies (s : State) (c : DWord) (lk t : Bool) (g : DWord) :
    (s.branchEnd c lk t g).extReplies = s.extReplies := rfl
@[simp] theorem State.branchEnd_extSent (s : State) (c : DWord) (lk t : Bool) (g : DWord) :
    (s.branchEnd c lk t g).extSent = s.extSent := rfl
@[simp] theorem State.branchEnd_lastExc (s : State) (c : DWord) (lk t : Bool) (g : DWord) :
    (s.branchEnd c lk t g).lastExc = s.lastExc := rfl
@[simp] theorem State.branchEnd_draws (s : State) (c : DWord) (lk t : Bool) (g : DWord) :
    (s.branchEnd c lk t g).draws = s.draws := rfl

/-! ## State.sendExternal -/

@[simp] theorem State.sendExternal_cfg (s : State) (pa : DWord) (w : Option Word) :
    (s.sendExternal pa w).cfg = s.cfg := rfl
@[simp] theorem State.sendExternal_gpr (s : State) (pa : DWord) (w : Option Word) :
    (s.sendExternal pa w).gpr = s.gpr := rfl
@[simp] theorem State.sendExternal_fpr (s : State) (pa : DWord) (w : Option Word) :
    (s.sendExternal pa w).fpr = s.fpr := rfl
@[simp] theorem State.sendExternal_cr (s : State) (pa : DWord) (w : Option Word) :
    (s.sendExternal pa w).cr = s.cr := rfl
@[simp] theorem State.sendExternal_fpscr (s : State) (pa : DWord) (w : Option Word) :
    (s.sendExternal pa w).fpscr = s.fpscr := rfl
@[simp] theorem State.sendExternal_xer (s : State) (pa : DWord) (w : Option Word) :
    (s.sendExternal pa w).xer = s.xer := rfl
@[simp] theorem State.sendExternal_lr (s : State) (pa : DWord) (w : Option Word) :
    (s.sendExternal pa w).lr = s.lr := rfl
@[simp] theorem State.sendExternal_ctr (s : State) (pa : DWord) (w : Option Word) :
    (s.sendExternal pa w).ctr = s.ctr := rfl
@[simp] theorem State.sendExternal_tbu (s : State) (pa : DWord) (w : Option Word) :
    (s.sendExternal pa w).tbu = s.tbu := rfl
@[simp] theorem State.sendExternal_tbl (s : State) (pa : DWord) (w : Option Word) :
    (s.sendExternal pa w).tbl = s.tbl := rfl
@[simp] theorem State.sendExternal_msr (s : State) (pa : DWord) (w : Option Word) :
    (s.sendExternal pa w).msr = s.msr := rfl
@[simp] theorem State.sendExternal_ibatU (s : State) (pa : DWord) (w : Option Word) :
    (s.sendExternal pa w).ibatU = s.ibatU := rfl
@[simp] theorem State.sendExternal_ibatL (s : State) (pa : DWord) (w : Option Word) :
    (s.sendExternal pa w).ibatL = s.ibatL := rfl
@[simp] theorem State.sendExternal_dbatU (s : State) (pa : DWord) (w : Option Word) :
    (s.sendExternal pa w).dbatU = s.dbatU := rfl
@[simp] theorem State.sendExternal_dbatL (s : State) (pa : DWord) (w : Option Word) :
    (s.sendExternal pa w).dbatL = s.dbatL := rfl
@[simp] theorem State.sendExternal_sdr1 (s : State) (pa : DWord) (w : Option Word) :
    (s.sendExternal pa w).sdr1 = s.sdr1 := rfl
@[simp] theorem State.sendExternal_asr (s : State) (pa : DWord) (w : Option Word) :
    (s.sendExternal pa w).asr = s.asr := rfl
@[simp] theorem State.sendExternal_sr (s : State) (pa : DWord) (w : Option Word) :
    (s.sendExternal pa w).sr = s.sr := rfl
@[simp] theorem State.sendExternal_dar (s : State) (pa : DWord) (w : Option Word) :
    (s.sendExternal pa w).dar = s.dar := rfl
@[simp] theorem State.sendExternal_sprg (s : State) (pa : DWord) (w : Option Word) :
    (s.sendExternal pa w).sprg = s.sprg := rfl
@[simp] theorem State.sendExternal_dsisr (s : State) (pa : DWord) (w : Option Word) :
    (s.sendExternal pa w).dsisr = s.dsisr := rfl
@[simp] theorem State.sendExternal_srr0 (s : State) (pa : DWord) (w : Option Word) :
    (s.sendExternal pa w).srr0 = s.srr0 := rfl
@[simp] theorem State.sendExternal_srr1 (s : State) (pa : DWord) (w : Option Word) :
    (s.sendExternal pa w).srr1 = s.srr1 := rfl
@[simp] theorem State.sendExternal_fpecr (s : State) (pa : DWord) (w : Option Word) :
    (s.sendExternal pa w).fpecr = s.fpecr := rfl
@[simp] theorem State.sendExternal_dec (s : State) (pa : DWord) (w : Option Word) :
    (s.sendExternal pa w).dec = s.dec := rfl
@[simp] theorem State.sendExternal_dabr (s : State) (pa : DWord) (w : Option Word) :
    (s.sendExternal pa w).dabr = s.dabr := rfl
@[simp] theorem State.sendExternal_ear (s : State) (pa : DWord) (w : Option Word) :
    (s.sendExternal pa w).ear = s.ear := rfl
@[simp] theorem State.sendExternal_pir (s : State) (pa : DWord) (w : Option Word) :
    (s.sendExternal pa w).pir = s.pir := rfl
@[simp] theorem State.sendExternal_decRequest (s : State) (pa : DWord) (w : Option Word) :
    (s.sendExternal pa w).decRequest = s.decRequest := rfl
@[simp] theorem State.sendExternal_pc (s : State) (pa : DWord) (w : Option Word) :
    (s.sendExternal pa w).pc = s.pc := rfl
@[simp] theorem State.sendExternal_mem (s : State) (pa : DWord) (w : Option Word) :
    (s.sendExternal pa w).mem = s.mem := rfl
@[simp] theorem State.sendExternal_checkstop (s : State) (pa : DWord) (w : Option Word) :
    (s.sendExternal pa w).checkstop = s.checkstop := rfl
@[simp] theorem State.sendExternal_storedSinceSync (s : State) (pa : DWord) (w : Option Word) :
    (s.sendExternal pa w).storedSinceSync = s.storedSinceSync := rfl
@[simp] theorem State.sendExternal_inputs (s : State) (pa : DWord) (w : Option Word) :
    (s.sendExternal pa w).inputs = s.inputs := rfl
@[simp] theorem State.sendExternal_extReplies (s : State) (pa : DWord) (w : Option Word) :
    (s.sendExternal pa w).extReplies = s.extReplies := rfl
@[simp] theorem State.sendExternal_extSent (s : State) (pa : DWord) (w : Option Word) :
    (s.sendExternal pa w).extSent = s.extSent ++ [⟨earRID s.cfg s.ear, pa, w⟩] := rfl
@[simp] theorem State.sendExternal_lastExc (s : State) (pa : DWord) (w : Option Word) :
    (s.sendExternal pa w).lastExc = s.lastExc := rfl
@[simp] theorem State.sendExternal_draws (s : State) (pa : DWord) (w : Option Word) :
    (s.sendExternal pa w).draws = s.draws := rfl

/-! ## State.setOverflow -/

@[simp] theorem State.setOverflow_cfg (s : State) (oe ov : Bool) :
    (s.setOverflow oe ov).cfg = s.cfg := by
  unfold State.setOverflow; (repeat' split) <;> rfl
@[simp] theorem State.setOverflow_gpr (s : State) (oe ov : Bool) :
    (s.setOverflow oe ov).gpr = s.gpr := by
  unfold State.setOverflow; (repeat' split) <;> rfl
@[simp] theorem State.setOverflow_fpr (s : State) (oe ov : Bool) :
    (s.setOverflow oe ov).fpr = s.fpr := by
  unfold State.setOverflow; (repeat' split) <;> rfl
@[simp] theorem State.setOverflow_cr (s : State) (oe ov : Bool) :
    (s.setOverflow oe ov).cr = s.cr := by
  unfold State.setOverflow; (repeat' split) <;> rfl
@[simp] theorem State.setOverflow_fpscr (s : State) (oe ov : Bool) :
    (s.setOverflow oe ov).fpscr = s.fpscr := by
  unfold State.setOverflow; (repeat' split) <;> rfl
@[simp] theorem State.setOverflow_lr (s : State) (oe ov : Bool) :
    (s.setOverflow oe ov).lr = s.lr := by
  unfold State.setOverflow; (repeat' split) <;> rfl
@[simp] theorem State.setOverflow_ctr (s : State) (oe ov : Bool) :
    (s.setOverflow oe ov).ctr = s.ctr := by
  unfold State.setOverflow; (repeat' split) <;> rfl
@[simp] theorem State.setOverflow_tbu (s : State) (oe ov : Bool) :
    (s.setOverflow oe ov).tbu = s.tbu := by
  unfold State.setOverflow; (repeat' split) <;> rfl
@[simp] theorem State.setOverflow_tbl (s : State) (oe ov : Bool) :
    (s.setOverflow oe ov).tbl = s.tbl := by
  unfold State.setOverflow; (repeat' split) <;> rfl
@[simp] theorem State.setOverflow_msr (s : State) (oe ov : Bool) :
    (s.setOverflow oe ov).msr = s.msr := by
  unfold State.setOverflow; (repeat' split) <;> rfl
@[simp] theorem State.setOverflow_ibatU (s : State) (oe ov : Bool) :
    (s.setOverflow oe ov).ibatU = s.ibatU := by
  unfold State.setOverflow; (repeat' split) <;> rfl
@[simp] theorem State.setOverflow_ibatL (s : State) (oe ov : Bool) :
    (s.setOverflow oe ov).ibatL = s.ibatL := by
  unfold State.setOverflow; (repeat' split) <;> rfl
@[simp] theorem State.setOverflow_dbatU (s : State) (oe ov : Bool) :
    (s.setOverflow oe ov).dbatU = s.dbatU := by
  unfold State.setOverflow; (repeat' split) <;> rfl
@[simp] theorem State.setOverflow_dbatL (s : State) (oe ov : Bool) :
    (s.setOverflow oe ov).dbatL = s.dbatL := by
  unfold State.setOverflow; (repeat' split) <;> rfl
@[simp] theorem State.setOverflow_sdr1 (s : State) (oe ov : Bool) :
    (s.setOverflow oe ov).sdr1 = s.sdr1 := by
  unfold State.setOverflow; (repeat' split) <;> rfl
@[simp] theorem State.setOverflow_asr (s : State) (oe ov : Bool) :
    (s.setOverflow oe ov).asr = s.asr := by
  unfold State.setOverflow; (repeat' split) <;> rfl
@[simp] theorem State.setOverflow_sr (s : State) (oe ov : Bool) :
    (s.setOverflow oe ov).sr = s.sr := by
  unfold State.setOverflow; (repeat' split) <;> rfl
@[simp] theorem State.setOverflow_dar (s : State) (oe ov : Bool) :
    (s.setOverflow oe ov).dar = s.dar := by
  unfold State.setOverflow; (repeat' split) <;> rfl
@[simp] theorem State.setOverflow_sprg (s : State) (oe ov : Bool) :
    (s.setOverflow oe ov).sprg = s.sprg := by
  unfold State.setOverflow; (repeat' split) <;> rfl
@[simp] theorem State.setOverflow_dsisr (s : State) (oe ov : Bool) :
    (s.setOverflow oe ov).dsisr = s.dsisr := by
  unfold State.setOverflow; (repeat' split) <;> rfl
@[simp] theorem State.setOverflow_srr0 (s : State) (oe ov : Bool) :
    (s.setOverflow oe ov).srr0 = s.srr0 := by
  unfold State.setOverflow; (repeat' split) <;> rfl
@[simp] theorem State.setOverflow_srr1 (s : State) (oe ov : Bool) :
    (s.setOverflow oe ov).srr1 = s.srr1 := by
  unfold State.setOverflow; (repeat' split) <;> rfl
@[simp] theorem State.setOverflow_fpecr (s : State) (oe ov : Bool) :
    (s.setOverflow oe ov).fpecr = s.fpecr := by
  unfold State.setOverflow; (repeat' split) <;> rfl
@[simp] theorem State.setOverflow_dec (s : State) (oe ov : Bool) :
    (s.setOverflow oe ov).dec = s.dec := by
  unfold State.setOverflow; (repeat' split) <;> rfl
@[simp] theorem State.setOverflow_dabr (s : State) (oe ov : Bool) :
    (s.setOverflow oe ov).dabr = s.dabr := by
  unfold State.setOverflow; (repeat' split) <;> rfl
@[simp] theorem State.setOverflow_ear (s : State) (oe ov : Bool) :
    (s.setOverflow oe ov).ear = s.ear := by
  unfold State.setOverflow; (repeat' split) <;> rfl
@[simp] theorem State.setOverflow_pir (s : State) (oe ov : Bool) :
    (s.setOverflow oe ov).pir = s.pir := by
  unfold State.setOverflow; (repeat' split) <;> rfl
@[simp] theorem State.setOverflow_decRequest (s : State) (oe ov : Bool) :
    (s.setOverflow oe ov).decRequest = s.decRequest := by
  unfold State.setOverflow; (repeat' split) <;> rfl
@[simp] theorem State.setOverflow_pc (s : State) (oe ov : Bool) :
    (s.setOverflow oe ov).pc = s.pc := by
  unfold State.setOverflow; (repeat' split) <;> rfl
@[simp] theorem State.setOverflow_mem (s : State) (oe ov : Bool) :
    (s.setOverflow oe ov).mem = s.mem := by
  unfold State.setOverflow; (repeat' split) <;> rfl
@[simp] theorem State.setOverflow_checkstop (s : State) (oe ov : Bool) :
    (s.setOverflow oe ov).checkstop = s.checkstop := by
  unfold State.setOverflow; (repeat' split) <;> rfl
@[simp] theorem State.setOverflow_storedSinceSync (s : State) (oe ov : Bool) :
    (s.setOverflow oe ov).storedSinceSync = s.storedSinceSync := by
  unfold State.setOverflow; (repeat' split) <;> rfl
@[simp] theorem State.setOverflow_inputs (s : State) (oe ov : Bool) :
    (s.setOverflow oe ov).inputs = s.inputs := by
  unfold State.setOverflow; (repeat' split) <;> rfl
@[simp] theorem State.setOverflow_extReplies (s : State) (oe ov : Bool) :
    (s.setOverflow oe ov).extReplies = s.extReplies := by
  unfold State.setOverflow; (repeat' split) <;> rfl
@[simp] theorem State.setOverflow_extSent (s : State) (oe ov : Bool) :
    (s.setOverflow oe ov).extSent = s.extSent := by
  unfold State.setOverflow; (repeat' split) <;> rfl
@[simp] theorem State.setOverflow_lastExc (s : State) (oe ov : Bool) :
    (s.setOverflow oe ov).lastExc = s.lastExc := by
  unfold State.setOverflow; (repeat' split) <;> rfl
@[simp] theorem State.setOverflow_draws (s : State) (oe ov : Bool) :
    (s.setOverflow oe ov).draws = s.draws := by
  unfold State.setOverflow; (repeat' split) <;> rfl

/-! ## State.recordForm -/

@[simp] theorem State.recordForm_cfg (s : State) (rc u : Bool) (r : DWord) :
    (s.recordForm rc u r).cfg = s.cfg := by
  unfold State.recordForm; (repeat' split) <;> rfl
@[simp] theorem State.recordForm_gpr (s : State) (rc u : Bool) (r : DWord) :
    (s.recordForm rc u r).gpr = s.gpr := by
  unfold State.recordForm; (repeat' split) <;> rfl
@[simp] theorem State.recordForm_fpr (s : State) (rc u : Bool) (r : DWord) :
    (s.recordForm rc u r).fpr = s.fpr := by
  unfold State.recordForm; (repeat' split) <;> rfl
@[simp] theorem State.recordForm_fpscr (s : State) (rc u : Bool) (r : DWord) :
    (s.recordForm rc u r).fpscr = s.fpscr := by
  unfold State.recordForm; (repeat' split) <;> rfl
@[simp] theorem State.recordForm_xer (s : State) (rc u : Bool) (r : DWord) :
    (s.recordForm rc u r).xer = s.xer := by
  unfold State.recordForm; (repeat' split) <;> rfl
@[simp] theorem State.recordForm_lr (s : State) (rc u : Bool) (r : DWord) :
    (s.recordForm rc u r).lr = s.lr := by
  unfold State.recordForm; (repeat' split) <;> rfl
@[simp] theorem State.recordForm_ctr (s : State) (rc u : Bool) (r : DWord) :
    (s.recordForm rc u r).ctr = s.ctr := by
  unfold State.recordForm; (repeat' split) <;> rfl
@[simp] theorem State.recordForm_tbu (s : State) (rc u : Bool) (r : DWord) :
    (s.recordForm rc u r).tbu = s.tbu := by
  unfold State.recordForm; (repeat' split) <;> rfl
@[simp] theorem State.recordForm_tbl (s : State) (rc u : Bool) (r : DWord) :
    (s.recordForm rc u r).tbl = s.tbl := by
  unfold State.recordForm; (repeat' split) <;> rfl
@[simp] theorem State.recordForm_msr (s : State) (rc u : Bool) (r : DWord) :
    (s.recordForm rc u r).msr = s.msr := by
  unfold State.recordForm; (repeat' split) <;> rfl
@[simp] theorem State.recordForm_ibatU (s : State) (rc u : Bool) (r : DWord) :
    (s.recordForm rc u r).ibatU = s.ibatU := by
  unfold State.recordForm; (repeat' split) <;> rfl
@[simp] theorem State.recordForm_ibatL (s : State) (rc u : Bool) (r : DWord) :
    (s.recordForm rc u r).ibatL = s.ibatL := by
  unfold State.recordForm; (repeat' split) <;> rfl
@[simp] theorem State.recordForm_dbatU (s : State) (rc u : Bool) (r : DWord) :
    (s.recordForm rc u r).dbatU = s.dbatU := by
  unfold State.recordForm; (repeat' split) <;> rfl
@[simp] theorem State.recordForm_dbatL (s : State) (rc u : Bool) (r : DWord) :
    (s.recordForm rc u r).dbatL = s.dbatL := by
  unfold State.recordForm; (repeat' split) <;> rfl
@[simp] theorem State.recordForm_sdr1 (s : State) (rc u : Bool) (r : DWord) :
    (s.recordForm rc u r).sdr1 = s.sdr1 := by
  unfold State.recordForm; (repeat' split) <;> rfl
@[simp] theorem State.recordForm_asr (s : State) (rc u : Bool) (r : DWord) :
    (s.recordForm rc u r).asr = s.asr := by
  unfold State.recordForm; (repeat' split) <;> rfl
@[simp] theorem State.recordForm_sr (s : State) (rc u : Bool) (r : DWord) :
    (s.recordForm rc u r).sr = s.sr := by
  unfold State.recordForm; (repeat' split) <;> rfl
@[simp] theorem State.recordForm_dar (s : State) (rc u : Bool) (r : DWord) :
    (s.recordForm rc u r).dar = s.dar := by
  unfold State.recordForm; (repeat' split) <;> rfl
@[simp] theorem State.recordForm_sprg (s : State) (rc u : Bool) (r : DWord) :
    (s.recordForm rc u r).sprg = s.sprg := by
  unfold State.recordForm; (repeat' split) <;> rfl
@[simp] theorem State.recordForm_dsisr (s : State) (rc u : Bool) (r : DWord) :
    (s.recordForm rc u r).dsisr = s.dsisr := by
  unfold State.recordForm; (repeat' split) <;> rfl
@[simp] theorem State.recordForm_srr0 (s : State) (rc u : Bool) (r : DWord) :
    (s.recordForm rc u r).srr0 = s.srr0 := by
  unfold State.recordForm; (repeat' split) <;> rfl
@[simp] theorem State.recordForm_srr1 (s : State) (rc u : Bool) (r : DWord) :
    (s.recordForm rc u r).srr1 = s.srr1 := by
  unfold State.recordForm; (repeat' split) <;> rfl
@[simp] theorem State.recordForm_fpecr (s : State) (rc u : Bool) (r : DWord) :
    (s.recordForm rc u r).fpecr = s.fpecr := by
  unfold State.recordForm; (repeat' split) <;> rfl
@[simp] theorem State.recordForm_dec (s : State) (rc u : Bool) (r : DWord) :
    (s.recordForm rc u r).dec = s.dec := by
  unfold State.recordForm; (repeat' split) <;> rfl
@[simp] theorem State.recordForm_dabr (s : State) (rc u : Bool) (r : DWord) :
    (s.recordForm rc u r).dabr = s.dabr := by
  unfold State.recordForm; (repeat' split) <;> rfl
@[simp] theorem State.recordForm_ear (s : State) (rc u : Bool) (r : DWord) :
    (s.recordForm rc u r).ear = s.ear := by
  unfold State.recordForm; (repeat' split) <;> rfl
@[simp] theorem State.recordForm_pir (s : State) (rc u : Bool) (r : DWord) :
    (s.recordForm rc u r).pir = s.pir := by
  unfold State.recordForm; (repeat' split) <;> rfl
@[simp] theorem State.recordForm_decRequest (s : State) (rc u : Bool) (r : DWord) :
    (s.recordForm rc u r).decRequest = s.decRequest := by
  unfold State.recordForm; (repeat' split) <;> rfl
@[simp] theorem State.recordForm_pc (s : State) (rc u : Bool) (r : DWord) :
    (s.recordForm rc u r).pc = s.pc := by
  unfold State.recordForm; (repeat' split) <;> rfl
@[simp] theorem State.recordForm_mem (s : State) (rc u : Bool) (r : DWord) :
    (s.recordForm rc u r).mem = s.mem := by
  unfold State.recordForm; (repeat' split) <;> rfl
@[simp] theorem State.recordForm_checkstop (s : State) (rc u : Bool) (r : DWord) :
    (s.recordForm rc u r).checkstop = s.checkstop := by
  unfold State.recordForm; (repeat' split) <;> rfl
@[simp] theorem State.recordForm_storedSinceSync (s : State) (rc u : Bool) (r : DWord) :
    (s.recordForm rc u r).storedSinceSync = s.storedSinceSync := by
  unfold State.recordForm; (repeat' split) <;> rfl
@[simp] theorem State.recordForm_inputs (s : State) (rc u : Bool) (r : DWord) :
    (s.recordForm rc u r).inputs = s.inputs := by
  unfold State.recordForm; (repeat' split) <;> rfl
@[simp] theorem State.recordForm_extReplies (s : State) (rc u : Bool) (r : DWord) :
    (s.recordForm rc u r).extReplies = s.extReplies := by
  unfold State.recordForm; (repeat' split) <;> rfl
@[simp] theorem State.recordForm_extSent (s : State) (rc u : Bool) (r : DWord) :
    (s.recordForm rc u r).extSent = s.extSent := by
  unfold State.recordForm; (repeat' split) <;> rfl
@[simp] theorem State.recordForm_lastExc (s : State) (rc u : Bool) (r : DWord) :
    (s.recordForm rc u r).lastExc = s.lastExc := by
  unfold State.recordForm; (repeat' split) <;> rfl
@[simp] theorem State.recordForm_draws (s : State) (rc u : Bool) (r : DWord) :
    (s.recordForm rc u r).draws = s.draws := by
  unfold State.recordForm; (repeat' split) <;> rfl

/-! ## State.recordCr1 -/

@[simp] theorem State.recordCr1_cfg (s : State) (rc : Bool) :
    (s.recordCr1 rc).cfg = s.cfg := by
  unfold State.recordCr1; (repeat' split) <;> rfl
@[simp] theorem State.recordCr1_gpr (s : State) (rc : Bool) :
    (s.recordCr1 rc).gpr = s.gpr := by
  unfold State.recordCr1; (repeat' split) <;> rfl
@[simp] theorem State.recordCr1_fpr (s : State) (rc : Bool) :
    (s.recordCr1 rc).fpr = s.fpr := by
  unfold State.recordCr1; (repeat' split) <;> rfl
@[simp] theorem State.recordCr1_fpscr (s : State) (rc : Bool) :
    (s.recordCr1 rc).fpscr = s.fpscr := by
  unfold State.recordCr1; (repeat' split) <;> rfl
@[simp] theorem State.recordCr1_xer (s : State) (rc : Bool) :
    (s.recordCr1 rc).xer = s.xer := by
  unfold State.recordCr1; (repeat' split) <;> rfl
@[simp] theorem State.recordCr1_lr (s : State) (rc : Bool) :
    (s.recordCr1 rc).lr = s.lr := by
  unfold State.recordCr1; (repeat' split) <;> rfl
@[simp] theorem State.recordCr1_ctr (s : State) (rc : Bool) :
    (s.recordCr1 rc).ctr = s.ctr := by
  unfold State.recordCr1; (repeat' split) <;> rfl
@[simp] theorem State.recordCr1_tbu (s : State) (rc : Bool) :
    (s.recordCr1 rc).tbu = s.tbu := by
  unfold State.recordCr1; (repeat' split) <;> rfl
@[simp] theorem State.recordCr1_tbl (s : State) (rc : Bool) :
    (s.recordCr1 rc).tbl = s.tbl := by
  unfold State.recordCr1; (repeat' split) <;> rfl
@[simp] theorem State.recordCr1_msr (s : State) (rc : Bool) :
    (s.recordCr1 rc).msr = s.msr := by
  unfold State.recordCr1; (repeat' split) <;> rfl
@[simp] theorem State.recordCr1_ibatU (s : State) (rc : Bool) :
    (s.recordCr1 rc).ibatU = s.ibatU := by
  unfold State.recordCr1; (repeat' split) <;> rfl
@[simp] theorem State.recordCr1_ibatL (s : State) (rc : Bool) :
    (s.recordCr1 rc).ibatL = s.ibatL := by
  unfold State.recordCr1; (repeat' split) <;> rfl
@[simp] theorem State.recordCr1_dbatU (s : State) (rc : Bool) :
    (s.recordCr1 rc).dbatU = s.dbatU := by
  unfold State.recordCr1; (repeat' split) <;> rfl
@[simp] theorem State.recordCr1_dbatL (s : State) (rc : Bool) :
    (s.recordCr1 rc).dbatL = s.dbatL := by
  unfold State.recordCr1; (repeat' split) <;> rfl
@[simp] theorem State.recordCr1_sdr1 (s : State) (rc : Bool) :
    (s.recordCr1 rc).sdr1 = s.sdr1 := by
  unfold State.recordCr1; (repeat' split) <;> rfl
@[simp] theorem State.recordCr1_asr (s : State) (rc : Bool) :
    (s.recordCr1 rc).asr = s.asr := by
  unfold State.recordCr1; (repeat' split) <;> rfl
@[simp] theorem State.recordCr1_sr (s : State) (rc : Bool) :
    (s.recordCr1 rc).sr = s.sr := by
  unfold State.recordCr1; (repeat' split) <;> rfl
@[simp] theorem State.recordCr1_dar (s : State) (rc : Bool) :
    (s.recordCr1 rc).dar = s.dar := by
  unfold State.recordCr1; (repeat' split) <;> rfl
@[simp] theorem State.recordCr1_sprg (s : State) (rc : Bool) :
    (s.recordCr1 rc).sprg = s.sprg := by
  unfold State.recordCr1; (repeat' split) <;> rfl
@[simp] theorem State.recordCr1_dsisr (s : State) (rc : Bool) :
    (s.recordCr1 rc).dsisr = s.dsisr := by
  unfold State.recordCr1; (repeat' split) <;> rfl
@[simp] theorem State.recordCr1_srr0 (s : State) (rc : Bool) :
    (s.recordCr1 rc).srr0 = s.srr0 := by
  unfold State.recordCr1; (repeat' split) <;> rfl
@[simp] theorem State.recordCr1_srr1 (s : State) (rc : Bool) :
    (s.recordCr1 rc).srr1 = s.srr1 := by
  unfold State.recordCr1; (repeat' split) <;> rfl
@[simp] theorem State.recordCr1_fpecr (s : State) (rc : Bool) :
    (s.recordCr1 rc).fpecr = s.fpecr := by
  unfold State.recordCr1; (repeat' split) <;> rfl
@[simp] theorem State.recordCr1_dec (s : State) (rc : Bool) :
    (s.recordCr1 rc).dec = s.dec := by
  unfold State.recordCr1; (repeat' split) <;> rfl
@[simp] theorem State.recordCr1_dabr (s : State) (rc : Bool) :
    (s.recordCr1 rc).dabr = s.dabr := by
  unfold State.recordCr1; (repeat' split) <;> rfl
@[simp] theorem State.recordCr1_ear (s : State) (rc : Bool) :
    (s.recordCr1 rc).ear = s.ear := by
  unfold State.recordCr1; (repeat' split) <;> rfl
@[simp] theorem State.recordCr1_pir (s : State) (rc : Bool) :
    (s.recordCr1 rc).pir = s.pir := by
  unfold State.recordCr1; (repeat' split) <;> rfl
@[simp] theorem State.recordCr1_decRequest (s : State) (rc : Bool) :
    (s.recordCr1 rc).decRequest = s.decRequest := by
  unfold State.recordCr1; (repeat' split) <;> rfl
@[simp] theorem State.recordCr1_pc (s : State) (rc : Bool) :
    (s.recordCr1 rc).pc = s.pc := by
  unfold State.recordCr1; (repeat' split) <;> rfl
@[simp] theorem State.recordCr1_mem (s : State) (rc : Bool) :
    (s.recordCr1 rc).mem = s.mem := by
  unfold State.recordCr1; (repeat' split) <;> rfl
@[simp] theorem State.recordCr1_checkstop (s : State) (rc : Bool) :
    (s.recordCr1 rc).checkstop = s.checkstop := by
  unfold State.recordCr1; (repeat' split) <;> rfl
@[simp] theorem State.recordCr1_storedSinceSync (s : State) (rc : Bool) :
    (s.recordCr1 rc).storedSinceSync = s.storedSinceSync := by
  unfold State.recordCr1; (repeat' split) <;> rfl
@[simp] theorem State.recordCr1_inputs (s : State) (rc : Bool) :
    (s.recordCr1 rc).inputs = s.inputs := by
  unfold State.recordCr1; (repeat' split) <;> rfl
@[simp] theorem State.recordCr1_extReplies (s : State) (rc : Bool) :
    (s.recordCr1 rc).extReplies = s.extReplies := by
  unfold State.recordCr1; (repeat' split) <;> rfl
@[simp] theorem State.recordCr1_extSent (s : State) (rc : Bool) :
    (s.recordCr1 rc).extSent = s.extSent := by
  unfold State.recordCr1; (repeat' split) <;> rfl
@[simp] theorem State.recordCr1_lastExc (s : State) (rc : Bool) :
    (s.recordCr1 rc).lastExc = s.lastExc := by
  unfold State.recordCr1; (repeat' split) <;> rfl
@[simp] theorem State.recordCr1_draws (s : State) (rc : Bool) :
    (s.recordCr1 rc).draws = s.draws := by
  unfold State.recordCr1; (repeat' split) <;> rfl

/-! ## State.markPages -/

@[simp] theorem State.markPages_cfg (s : State) (marks : List Host.Cell) :
    (s.markPages marks).cfg = s.cfg := rfl
@[simp] theorem State.markPages_gpr (s : State) (marks : List Host.Cell) :
    (s.markPages marks).gpr = s.gpr := rfl
@[simp] theorem State.markPages_fpr (s : State) (marks : List Host.Cell) :
    (s.markPages marks).fpr = s.fpr := rfl
@[simp] theorem State.markPages_cr (s : State) (marks : List Host.Cell) :
    (s.markPages marks).cr = s.cr := rfl
@[simp] theorem State.markPages_fpscr (s : State) (marks : List Host.Cell) :
    (s.markPages marks).fpscr = s.fpscr := rfl
@[simp] theorem State.markPages_xer (s : State) (marks : List Host.Cell) :
    (s.markPages marks).xer = s.xer := rfl
@[simp] theorem State.markPages_lr (s : State) (marks : List Host.Cell) :
    (s.markPages marks).lr = s.lr := rfl
@[simp] theorem State.markPages_ctr (s : State) (marks : List Host.Cell) :
    (s.markPages marks).ctr = s.ctr := rfl
@[simp] theorem State.markPages_tbu (s : State) (marks : List Host.Cell) :
    (s.markPages marks).tbu = s.tbu := rfl
@[simp] theorem State.markPages_tbl (s : State) (marks : List Host.Cell) :
    (s.markPages marks).tbl = s.tbl := rfl
@[simp] theorem State.markPages_msr (s : State) (marks : List Host.Cell) :
    (s.markPages marks).msr = s.msr := rfl
@[simp] theorem State.markPages_ibatU (s : State) (marks : List Host.Cell) :
    (s.markPages marks).ibatU = s.ibatU := rfl
@[simp] theorem State.markPages_ibatL (s : State) (marks : List Host.Cell) :
    (s.markPages marks).ibatL = s.ibatL := rfl
@[simp] theorem State.markPages_dbatU (s : State) (marks : List Host.Cell) :
    (s.markPages marks).dbatU = s.dbatU := rfl
@[simp] theorem State.markPages_dbatL (s : State) (marks : List Host.Cell) :
    (s.markPages marks).dbatL = s.dbatL := rfl
@[simp] theorem State.markPages_sdr1 (s : State) (marks : List Host.Cell) :
    (s.markPages marks).sdr1 = s.sdr1 := rfl
@[simp] theorem State.markPages_asr (s : State) (marks : List Host.Cell) :
    (s.markPages marks).asr = s.asr := rfl
@[simp] theorem State.markPages_sr (s : State) (marks : List Host.Cell) :
    (s.markPages marks).sr = s.sr := rfl
@[simp] theorem State.markPages_dar (s : State) (marks : List Host.Cell) :
    (s.markPages marks).dar = s.dar := rfl
@[simp] theorem State.markPages_sprg (s : State) (marks : List Host.Cell) :
    (s.markPages marks).sprg = s.sprg := rfl
@[simp] theorem State.markPages_dsisr (s : State) (marks : List Host.Cell) :
    (s.markPages marks).dsisr = s.dsisr := rfl
@[simp] theorem State.markPages_srr0 (s : State) (marks : List Host.Cell) :
    (s.markPages marks).srr0 = s.srr0 := rfl
@[simp] theorem State.markPages_srr1 (s : State) (marks : List Host.Cell) :
    (s.markPages marks).srr1 = s.srr1 := rfl
@[simp] theorem State.markPages_fpecr (s : State) (marks : List Host.Cell) :
    (s.markPages marks).fpecr = s.fpecr := rfl
@[simp] theorem State.markPages_dec (s : State) (marks : List Host.Cell) :
    (s.markPages marks).dec = s.dec := rfl
@[simp] theorem State.markPages_dabr (s : State) (marks : List Host.Cell) :
    (s.markPages marks).dabr = s.dabr := rfl
@[simp] theorem State.markPages_ear (s : State) (marks : List Host.Cell) :
    (s.markPages marks).ear = s.ear := rfl
@[simp] theorem State.markPages_pir (s : State) (marks : List Host.Cell) :
    (s.markPages marks).pir = s.pir := rfl
@[simp] theorem State.markPages_decRequest (s : State) (marks : List Host.Cell) :
    (s.markPages marks).decRequest = s.decRequest := rfl
@[simp] theorem State.markPages_pc (s : State) (marks : List Host.Cell) :
    (s.markPages marks).pc = s.pc := rfl
@[simp] theorem State.markPages_checkstop (s : State) (marks : List Host.Cell) :
    (s.markPages marks).checkstop = s.checkstop := rfl
@[simp] theorem State.markPages_storedSinceSync (s : State) (marks : List Host.Cell) :
    (s.markPages marks).storedSinceSync = s.storedSinceSync := rfl
@[simp] theorem State.markPages_inputs (s : State) (marks : List Host.Cell) :
    (s.markPages marks).inputs = s.inputs := rfl
@[simp] theorem State.markPages_extReplies (s : State) (marks : List Host.Cell) :
    (s.markPages marks).extReplies = s.extReplies := rfl
@[simp] theorem State.markPages_extSent (s : State) (marks : List Host.Cell) :
    (s.markPages marks).extSent = s.extSent := rfl
@[simp] theorem State.markPages_lastExc (s : State) (marks : List Host.Cell) :
    (s.markPages marks).lastExc = s.lastExc := rfl
@[simp] theorem State.markPages_draws (s : State) (marks : List Host.Cell) :
    (s.markPages marks).draws = s.draws := rfl

/-! ## State.clobber -/

@[simp] theorem State.clobber_cfg (s : State) (v w : DWord) :
    (s.clobber v w).cfg = s.cfg := by
  unfold State.clobber; (repeat' split) <;> rfl
@[simp] theorem State.clobber_gpr (s : State) (v w : DWord) :
    (s.clobber v w).gpr = s.gpr := by
  unfold State.clobber; (repeat' split) <;> rfl
@[simp] theorem State.clobber_fpr (s : State) (v w : DWord) :
    (s.clobber v w).fpr = s.fpr := by
  unfold State.clobber; (repeat' split) <;> rfl
@[simp] theorem State.clobber_cr (s : State) (v w : DWord) :
    (s.clobber v w).cr = s.cr := by
  unfold State.clobber; (repeat' split) <;> rfl
@[simp] theorem State.clobber_fpscr (s : State) (v w : DWord) :
    (s.clobber v w).fpscr = s.fpscr := by
  unfold State.clobber; (repeat' split) <;> rfl
@[simp] theorem State.clobber_xer (s : State) (v w : DWord) :
    (s.clobber v w).xer = s.xer := by
  unfold State.clobber; (repeat' split) <;> rfl
@[simp] theorem State.clobber_lr (s : State) (v w : DWord) :
    (s.clobber v w).lr = s.lr := by
  unfold State.clobber; (repeat' split) <;> rfl
@[simp] theorem State.clobber_ctr (s : State) (v w : DWord) :
    (s.clobber v w).ctr = s.ctr := by
  unfold State.clobber; (repeat' split) <;> rfl
@[simp] theorem State.clobber_tbu (s : State) (v w : DWord) :
    (s.clobber v w).tbu = s.tbu := by
  unfold State.clobber; (repeat' split) <;> rfl
@[simp] theorem State.clobber_tbl (s : State) (v w : DWord) :
    (s.clobber v w).tbl = s.tbl := by
  unfold State.clobber; (repeat' split) <;> rfl
@[simp] theorem State.clobber_msr (s : State) (v w : DWord) :
    (s.clobber v w).msr = s.msr := by
  unfold State.clobber; (repeat' split) <;> rfl
@[simp] theorem State.clobber_ibatU (s : State) (v w : DWord) :
    (s.clobber v w).ibatU = s.ibatU := by
  unfold State.clobber; (repeat' split) <;> rfl
@[simp] theorem State.clobber_ibatL (s : State) (v w : DWord) :
    (s.clobber v w).ibatL = s.ibatL := by
  unfold State.clobber; (repeat' split) <;> rfl
@[simp] theorem State.clobber_dbatU (s : State) (v w : DWord) :
    (s.clobber v w).dbatU = s.dbatU := by
  unfold State.clobber; (repeat' split) <;> rfl
@[simp] theorem State.clobber_dbatL (s : State) (v w : DWord) :
    (s.clobber v w).dbatL = s.dbatL := by
  unfold State.clobber; (repeat' split) <;> rfl
@[simp] theorem State.clobber_sdr1 (s : State) (v w : DWord) :
    (s.clobber v w).sdr1 = s.sdr1 := by
  unfold State.clobber; (repeat' split) <;> rfl
@[simp] theorem State.clobber_asr (s : State) (v w : DWord) :
    (s.clobber v w).asr = s.asr := by
  unfold State.clobber; (repeat' split) <;> rfl
@[simp] theorem State.clobber_sr (s : State) (v w : DWord) :
    (s.clobber v w).sr = s.sr := by
  unfold State.clobber; (repeat' split) <;> rfl
@[simp] theorem State.clobber_dar (s : State) (v w : DWord) :
    (s.clobber v w).dar = s.dar := by
  unfold State.clobber; (repeat' split) <;> rfl
@[simp] theorem State.clobber_sprg (s : State) (v w : DWord) :
    (s.clobber v w).sprg = s.sprg := by
  unfold State.clobber; (repeat' split) <;> rfl
@[simp] theorem State.clobber_dsisr (s : State) (v w : DWord) :
    (s.clobber v w).dsisr = s.dsisr := by
  unfold State.clobber; (repeat' split) <;> rfl
@[simp] theorem State.clobber_fpecr (s : State) (v w : DWord) :
    (s.clobber v w).fpecr = s.fpecr := by
  unfold State.clobber; (repeat' split) <;> rfl
@[simp] theorem State.clobber_dec (s : State) (v w : DWord) :
    (s.clobber v w).dec = s.dec := by
  unfold State.clobber; (repeat' split) <;> rfl
@[simp] theorem State.clobber_dabr (s : State) (v w : DWord) :
    (s.clobber v w).dabr = s.dabr := by
  unfold State.clobber; (repeat' split) <;> rfl
@[simp] theorem State.clobber_ear (s : State) (v w : DWord) :
    (s.clobber v w).ear = s.ear := by
  unfold State.clobber; (repeat' split) <;> rfl
@[simp] theorem State.clobber_pir (s : State) (v w : DWord) :
    (s.clobber v w).pir = s.pir := by
  unfold State.clobber; (repeat' split) <;> rfl
@[simp] theorem State.clobber_decRequest (s : State) (v w : DWord) :
    (s.clobber v w).decRequest = s.decRequest := by
  unfold State.clobber; (repeat' split) <;> rfl
@[simp] theorem State.clobber_pc (s : State) (v w : DWord) :
    (s.clobber v w).pc = s.pc := by
  unfold State.clobber; (repeat' split) <;> rfl
@[simp] theorem State.clobber_mem (s : State) (v w : DWord) :
    (s.clobber v w).mem = s.mem := by
  unfold State.clobber; (repeat' split) <;> rfl
@[simp] theorem State.clobber_checkstop (s : State) (v w : DWord) :
    (s.clobber v w).checkstop = s.checkstop := by
  unfold State.clobber; (repeat' split) <;> rfl
@[simp] theorem State.clobber_storedSinceSync (s : State) (v w : DWord) :
    (s.clobber v w).storedSinceSync = s.storedSinceSync := by
  unfold State.clobber; (repeat' split) <;> rfl
@[simp] theorem State.clobber_inputs (s : State) (v w : DWord) :
    (s.clobber v w).inputs = s.inputs := by
  unfold State.clobber; (repeat' split) <;> rfl
@[simp] theorem State.clobber_extReplies (s : State) (v w : DWord) :
    (s.clobber v w).extReplies = s.extReplies := by
  unfold State.clobber; (repeat' split) <;> rfl
@[simp] theorem State.clobber_extSent (s : State) (v w : DWord) :
    (s.clobber v w).extSent = s.extSent := by
  unfold State.clobber; (repeat' split) <;> rfl
@[simp] theorem State.clobber_lastExc (s : State) (v w : DWord) :
    (s.clobber v w).lastExc = s.lastExc := by
  unfold State.clobber; (repeat' split) <;> rfl
@[simp] theorem State.clobber_draws (s : State) (v w : DWord) :
    (s.clobber v w).draws = s.draws := by
  unfold State.clobber; (repeat' split) <;> rfl

end Sys2Proof.Machine
end

