-- ==== Sys2Proof/Safety.lean ====
section
/-! DEFINITION. What a safe run is, the invariant of the states, and the well-synchronized
executions (spec 70_reset_and_hazards.md R485 to R500). The step applies every alteration at once;
an execution that breaks the tables proves nothing about hardware (log 15). -/

namespace Sys2Proof

open Machine

/-! ## The invariant -/

/-- The value fits an XLEN-wide register: on a 32-bit implementation its upper half is 0. -/
def narrow (c : Config) (v : DWord) : Bool := xlenOf c v == v

/-- Every XLEN-wide register holds XLEN bits (R33, log 2). -/
def Machine.State.widthsOk (s : State) : Bool :=
  (s.gpr.toList.all (narrow s.cfg)) && narrow s.cfg s.lr && narrow s.cfg s.ctr &&
    narrow s.cfg s.msr && (s.ibatU.toList.all (narrow s.cfg)) &&
    (s.ibatL.toList.all (narrow s.cfg)) && (s.dbatU.toList.all (narrow s.cfg)) &&
    (s.dbatL.toList.all (narrow s.cfg)) && narrow s.cfg s.sdr1 && narrow s.cfg s.dar &&
    (s.sprg.toList.all (narrow s.cfg)) && narrow s.cfg s.srr0 && narrow s.cfg s.srr1 &&
    narrow s.cfg s.dabr && narrow s.cfg s.pc

/-- pc is a multiple of 4 (R166). -/
def Machine.State.pcAligned (s : State) : Bool := s.pc &&& 3#64 == 0

/-- In 32-bit mode the high-order half of pc is 0 (R166). -/
def Machine.State.pcInMode (s : State) : Bool := s.ea s.pc == s.pc

/-- Memory is in its canonical form. -/
def Machine.State.memOk (s : State) : Bool := Memory.wf s.mem

/-! ## Safe runs -/

/-- `n` steps from `s` neither fault nor are refused, and the processor does not end in the
checkstop state. -/
def SafeRun (n : Nat) (s : State) : Prop :=
  ∃ t, Host.Core.run { State := State, Fault := Fault, Refusal := Refusal, step := step, reset := State.reset } n s = .next t ∧
    t.checkstop = false

/-! ## Executions -/

/-- One step of an execution: the state it started in, with its input consumed, whether the boundary
fetched, the instruction executed, if one was, and the state it left. -/
structure Event where
  pre : State
  fetches : Bool
  instr : Option Instr
  post : State
deriving DecidableEq, Repr

/-- The boundary fetches: nothing requested comes before an instruction (R451). -/
def Machine.State.boundaryFetches (t : State) (i : Input) : Bool :=
  i.reset.isNone && !t.checkstop && !i.mcRequest && !(t.msrBit msrEE && i.extInt) &&
    !(t.msrBit msrEE && t.decRequest)

/-- The instruction a boundary executes, if it executes one. -/
def Machine.State.boundaryInstr (t : State) (i : Input) : Option Instr :=
  if t.boundaryFetches i then
    match t.fetch with
    | .word w => (decode w).toOption
    | _ => none
  else none

/-- The event of the step from `s` to `t`. -/
def eventOf (s t : State) : Event where
  pre := s.atBoundary
  fetches := s.atBoundary.boundaryFetches s.nextInput
  instr := s.atBoundary.boundaryInstr s.nextInput
  post := t

/-- The events of at most `n` steps, up to the first fault or refusal. -/
def events : Nat → State → List Event
  | 0, _ => []
  | n + 1, s =>
    match step s with
    | .next t => eventOf s t :: events n t
    | .fault _ => []
    | .refused _ => []

/-- The instruction ran to its end: no exception was taken, or one that follows a completed
instruction, the trace or the enabled floating-point exception (R310, R367, R444). -/
def Event.completed (e : Event) : Bool :=
  e.instr.isSome &&
    match e.post.lastExc with
    | none => !e.post.checkstop
    | some .trace => true
    | some (.program .fpEnabled) => true
    | some _ => false

/-- The event is a context-synchronizing instruction: `sc`, a completed return, a trap that is taken
(R487). -/
def Event.isCsi (e : Event) : Bool :=
  match e.instr with
  | some .sc => true
  | some .rfi => e.completed
  | some .rfid => e.completed
  | some (.tw _ _ _) => e.post.lastExc == some (.program .trap)
  | some (.twi _ _ _) => e.post.lastExc == some (.program .trap)
  | _ => false

/-- The event ends context synchronized: in an exception, but a nonrecoverable system reset or
machine check, or as a context-synchronizing instruction (R453, R487). -/
def Event.synchronizing (e : Event) : Bool :=
  (match e.post.lastExc with
    | some x => e.pre.excSynchronizes x
    | none => false) || e.isCsi

/-- The event is a `sync`. -/
def Event.isSync (e : Event) : Bool := e.instr == some .sync

/-- The event accesses data; a string of no bytes does not. -/
def Event.dataAccess (e : Event) : Bool :=
  match e.instr with
  | some (.lwz _ _ _) => true
  | some (.lswx _ _ _) => e.pre.byteCount != 0
  | some (.stswx _ _ _) => e.pre.byteCount != 0
  | some (.eciwx _ _ _) => e.pre.cfg.hasEar
  | some (.ecowx _ _ _) => e.pre.cfg.hasEar
  | _ => false

/-- The event accesses data under translation. -/
def Event.translatedData (e : Event) : Bool := e.dataAccess && e.pre.msrBit msrDR

/-- The event fetches under translation. -/
def Event.translatedFetch (e : Event) : Bool := e.fetches && e.pre.msrBit msrIR

/-- The event is an external control access. -/
def Event.external (e : Event) : Bool :=
  match e.instr with
  | some (.eciwx _ _ _) => e.pre.cfg.hasEar
  | some (.ecowx _ _ _) => e.pre.cfg.hasEar
  | _ => false

/-- The event is an instruction that needs MSR[FP] (R300). -/
def Event.floating (e : Event) : Bool :=
  match e.instr with
  | some (.mcrfs _ _) => true
  | some (.mtfsfi _ _ _) => true
  | some (.mtfsf _ _ _) => true
  | some (.mtfsb0 _ _) => true
  | some (.mtfsb1 _ _) => true
  | some (.mffs _ _) => true
  | _ => false

/-- The event is a branch, traced by MSR[BE] (R444). -/
def Event.branch (e : Event) : Bool := e.instr.any fun i => traceKind i == .branch

/-- A machine check happens at the event: it is taken, or it stops the processor (R454). -/
def Event.machineCheck (e : Event) : Bool :=
  e.post.lastExc == some .machineCheck || (e.post.checkstop && !e.pre.checkstop)

/-! ## Tables 2-22 and 2-23 -/

/-- What a context-altering instruction alters: the rows of R492 and R493. -/
inductive Resource where
  | sf | pow | ile | ee | pr | fp | me | fe | se | be | ip | ir | dr | ri | le
  | segment | asr | sdr1 | ibat | dbat | dabr | ear | dec | lookaside
deriving DecidableEq, Repr

/-- An entry of the tables; "—" is `implementation` (R491). -/
inductive SyncReq where
  | nothing | csi | sync | csiOrSync | implementation
deriving DecidableEq, Repr

/-- A row: what is altered, the column "Required Prior" and the column "Required After". -/
structure SyncRow where
  resource : Resource
  prior : SyncReq
  after : SyncReq
deriving DecidableEq, Repr

/-- Table 2-22, data accesses (R492). -/
def dataSyncTable : List SyncRow :=
  [⟨.sf, .nothing, .csi⟩, ⟨.ile, .nothing, .nothing⟩, ⟨.pr, .nothing, .csi⟩,
   ⟨.me, .nothing, .csi⟩, ⟨.dr, .nothing, .csi⟩, ⟨.le, .implementation, .implementation⟩,
   ⟨.segment, .csi, .csi⟩, ⟨.asr, .csi, .csi⟩, ⟨.sdr1, .sync, .csi⟩, ⟨.dbat, .csi, .csi⟩,
   ⟨.dabr, .implementation, .implementation⟩, ⟨.ear, .csi, .csi⟩,
   ⟨.lookaside, .csi, .csiOrSync⟩]

/-- Table 2-23, instruction fetch and execution (R493). -/
def fetchSyncTable : List SyncRow :=
  [⟨.sf, .nothing, .csi⟩, ⟨.pow, .implementation, .implementation⟩, ⟨.ile, .nothing, .nothing⟩,
   ⟨.ee, .nothing, .nothing⟩, ⟨.pr, .nothing, .csi⟩, ⟨.fp, .nothing, .csi⟩,
   ⟨.me, .nothing, .csi⟩, ⟨.fe, .nothing, .csi⟩, ⟨.se, .nothing, .csi⟩, ⟨.be, .nothing, .csi⟩,
   ⟨.ip, .nothing, .nothing⟩, ⟨.ir, .nothing, .csi⟩, ⟨.ri, .nothing, .nothing⟩,
   ⟨.le, .implementation, .implementation⟩, ⟨.segment, .nothing, .csi⟩, ⟨.asr, .nothing, .csi⟩,
   ⟨.sdr1, .sync, .csi⟩, ⟨.ibat, .nothing, .csi⟩, ⟨.dec, .nothing, .nothing⟩,
   ⟨.lookaside, .nothing, .csiOrSync⟩]

/-- MSR as the event's own instruction leaves it, before an exception that follows: a move to MSR that
does not complete has changed nothing. -/
def Event.newMsr (e : Event) : DWord :=
  if e.completed then
    match e.instr with
    | some (.mtmsr rs) => e.pre.x (e.pre.mtmsrValue rs)
    | some (.mtmsrd rs) => e.pre.x (e.pre.getGpr rs)
    | _ => e.pre.msr
  else e.pre.msr

/-- The context the event's own instruction establishes, before an exception that follows. -/
def Event.newContext (e : Event) : State := { e.post with msr := e.newMsr }

/-- The MSR bits that have rows, with the rows they belong to. -/
def msrResources : List (Nat × Resource) :=
  [(msrSF, .sf), (msrPOW, .pow), (msrILE, .ile), (msrEE, .ee), (msrPR, .pr), (msrFP, .fp),
   (msrME, .me), (msrFE0, .fe), (msrFE1, .fe), (msrSE, .se), (msrBE, .be), (msrIP, .ip),
   (msrIR, .ir), (msrDR, .dr), (msrRI, .ri), (msrLE, .le)]

/-- What a completed move to MSR alters: the bits it changes. -/
def Event.msrAltered (e : Event) : List Resource :=
  (msrResources.filter fun p => e.pre.msrBit p.1 != e.newContext.msrBit p.1).map (·.2)

/-- What a completed `mtspr` alters. -/
def sprAltered : Spr → List Resource
  | .asr => [.asr]
  | .sdr1 => [.sdr1]
  | .ibatU _ => [.ibat]
  | .ibatL _ => [.ibat]
  | .dbatU _ => [.dbat]
  | .dbatL _ => [.dbat]
  | .dabr => [.dabr]
  | .ear => [.ear]
  | .dec => [.dec]
  | _ => []

/-- What the event alters: the rows of the instructions that complete. An exception, a return, `sc`
and a trap have rows that ask for nothing (R487, R492, R493). -/
def Event.altered (e : Event) : List Resource :=
  if e.completed then
    match e.instr with
    | some (.mtmsr _) => e.msrAltered
    | some (.mtmsrd _) => e.msrAltered
    | some (.mtsr _ _) => [.segment]
    | some (.mtsrin _ _) => [.segment]
    | some (.slbie _) => [.lookaside]
    | some .slbia => [.lookaside]
    | some (.tlbie _) => [.lookaside]
    | some .tlbia => [.lookaside]
    | some (.mtspr _ n) => ((sprWritable e.pre.cfg n).map sprAltered).getD []
    | _ => []
  else []

/-- The event's data access is interpreted through the resource: through what translates or protects
only under MSR[DR] (R490, R500). A machine check is what ME bears on (R499). -/
def Event.dataAffected (e : Event) : Resource → Bool
  | .sf => e.dataAccess
  | .dr => e.dataAccess
  | .pr => e.translatedData
  | .segment => e.translatedData
  | .asr => e.translatedData
  | .sdr1 => e.translatedData
  | .dbat => e.translatedData
  | .lookaside => e.translatedData
  | .ear => e.external
  | .me => e.machineCheck
  | _ => false

/-- The event's fetch or execution is interpreted through the resource: every fetch for SF, PR and
IR, one under MSR[IR] for what translates, floating point for FP, FE0 and FE1, every instruction for
SE and a branch for BE where they are implemented, a machine check for ME (R490, R499, R500). -/
def Event.fetchAffected (e : Event) : Resource → Bool
  | .sf => e.fetches
  | .pr => e.fetches
  | .ir => e.fetches
  | .segment => e.translatedFetch
  | .asr => e.translatedFetch
  | .sdr1 => e.translatedFetch
  | .ibat => e.translatedFetch
  | .lookaside => e.translatedFetch
  | .fp => e.floating
  | .fe => e.floating
  | .se => e.instr.isSome && e.pre.cfg.hasSe
  | .be => e.branch && e.pre.cfg.hasBe
  | .me => e.machineCheck
  | _ => false

/-- The event is itself the required synchronization: an instruction, which may be fetched in either
context (R486). -/
def Event.isSynchronizer (e : Event) : SyncReq → Bool
  | .nothing => true
  | .csi => e.isCsi
  | .sync => e.isSync
  | .csiOrSync => e.isCsi || e.isSync
  | .implementation => true

/-- The requirement is met once the event is over. -/
def Event.meets (e : Event) : SyncReq → Bool
  | .nothing => true
  | .csi => e.synchronizing
  | .sync => e.isSync
  | .csiOrSync => e.synchronizing || e.isSync
  | .implementation => true

/-- What follows an alteration, nearest event first: the required synchronization comes before any
other event that is affected. An affected instruction that ends in an exception was affected before
it (R486, R500). -/
def afterOk (req : SyncReq) (affected : Event → Bool) : List Event → Bool
  | [] => true
  | e :: rest =>
    if e.isSynchronizer req then true
    else if affected e then false
    else e.meets req || afterOk req affected rest

/-- What precedes an alteration, nearest event first: since the last access it matters to there is
the required synchronization. For a `sync` that is the last translated access, of data or of an
instruction; otherwise the last data access that the resource affects (R490, R494, R500). The start
of the execution counts as synchronized. -/
def priorOk (req : SyncReq) (affected : Event → Bool) : List Event → Bool
  | [] => true
  | e :: rest =>
    if e.meets req then true
    else
      !(if req = .sync then e.translatedData || e.translatedFetch else affected e) &&
        priorOk req affected rest

/-- The row of a table is kept by the event `e` between those before it, nearest first, and those
after it. An exception that follows `e` at once is the synchronization after it. -/
def SyncRow.kept (r : SyncRow) (affected : Event → Resource → Bool) (before : List Event) (e : Event)
    (rest : List Event) : Bool :=
  !e.altered.contains r.resource ||
    (priorOk r.prior (affected · r.resource) before &&
      (e.synchronizing || afterOk r.after (affected · r.resource) rest))

/-- The events up to the next synchronizing one, that one included. -/
def untilSync : List Event → List Event
  | [] => []
  | e :: rest => if e.synchronizing then [e] else e :: untilSync rest

/-- The address the event's instruction goes on to, as 64-bit mode has it: the target of a branch, and
else pc + 4, whatever mode the instruction leaves. -/
def Event.wideNext (e : Event) : Option DWord :=
  e.instr.bind fun i =>
    if traceKind i == .branch then
      match exec i { e.pre with msr := e.pre.msr ||| bitIf true msrSF } with
      | .next t => some t.pc
      | .fault _ => none
      | .refused _ => none
    else some (e.pre.pc + 4#64)

/-- An address 32-bit mode leaves as it is. -/
def below32 (a : DWord) : Bool := decide (a.toNat < 2 ^ 32)

/-- Every fetch is at an address below 2^32, and so is the address its predecessor goes on to before
a mode masks it. -/
def addressesBelow32 : List Event → Bool
  | [] => true
  | [x] => !x.fetches || below32 x.pre.pc
  | x :: y :: rest =>
    (!x.fetches || below32 x.pre.pc) && (!y.fetches || x.wideNext.all below32) &&
      addressesBelow32 (y :: rest)

/-- Note 9: while SF changes, instruction addresses stay below 2^32, from the altering instruction to
the next context synchronizing one, so that none depends on the mode (R497). -/
def noteSF (e : Event) (rest : List Event) : Bool :=
  !e.altered.contains .sf || addressesBelow32 (untilSync (e :: rest))

/-- The alterations note 10 speaks of (R498). -/
def altersFetchTranslation (l : List Resource) : Bool :=
  l.contains .ir || l.contains .segment || l.contains .asr || l.contains .ibat

/-- The MSR bits a fetch is translated under: SF, PR and IR. -/
def fetchMsrBits : DWord := bitIf true msrSF ||| bitIf true msrPR ||| bitIf true msrIR

/-- What translates a fetch: SF, PR and IR of MSR, the segment registers, ASR and the IBATs. -/
structure FetchContext where
  msr : DWord
  sr : Vector Word 16
  asr : DWord
  ibatU : Vector DWord 4
  ibatL : Vector DWord 4
deriving DecidableEq, Repr

/-- The fetch context of a state. -/
def Machine.State.fetchContext (s : State) : FetchContext :=
  ⟨s.msr &&& fetchMsrBits, s.sr, s.asr, s.ibatU, s.ibatL⟩

/-- Each entry of `cur` that differs between `old` and `new` as in `new`. -/
def changedIn {α : Type} [DecidableEq α] {n : Nat} (old new cur : Vector α n) : Vector α n :=
  Vector.ofFn fun i => if old[i] = new[i] then cur[i] else new[i]

/-- The context `c` after the change from `old` to `new`, as a whole: a move to MSR that changes IR may
change PR and SF with it. -/
def FetchContext.follow (old new c : FetchContext) : FetchContext where
  msr := mergeBits (old.msr ^^^ new.msr) c.msr new.msr
  sr := changedIn old.sr new.sr c.sr
  asr := if old.asr = new.asr then c.asr else new.asr
  ibatU := changedIn old.ibatU new.ibatU c.ibatU
  ibatL := changedIn old.ibatL new.ibatL c.ibatL

/-- Where the state fetches its instruction from in the fetch context `c`; the page table's marks
are no part of it. -/
def Machine.State.fetchPlace (s : State) (c : FetchContext) : Walk :=
  let t := { s with
    msr := mergeBits fetchMsrBits s.msr c.msr
    sr := c.sr
    asr := c.asr
    ibatU := c.ibatU
    ibatL := c.ibatL }
  match t.fetchWalk (t.ea t.pc) with
  | .phys pa _ => .phys pa []
  | w => w

/-- The contexts an event may be fetched in, given those of the events before it: an alteration of
the fetch translation may or may not have taken effect, every other change has (R486). -/
def Event.fetchContexts (e : Event) (before : List FetchContext) : List FetchContext :=
  let start := if before.isEmpty then [e.pre.fetchContext] else before
  let changed := start.map (FetchContext.follow e.pre.fetchContext e.newContext.fetchContext)
  if altersFetchTranslation e.altered then start ++ changed else changed

/-- Note 10: from an instruction that alters the translation of fetches to the next context
synchronizing one, the physical address of each instruction is the same in every context it may be
fetched in, whichever of the pending alterations have taken effect (R498). `before` holds the
contexts the events before may have left; none are pending where it is empty. -/
def noteFetch : List FetchContext → List Event → Bool
  | _, [] => true
  | before, e :: rest =>
    let here := e.fetchContexts before
    let after := here.map (FetchContext.follow e.newContext.fetchContext e.post.fetchContext)
    (!e.fetches ||
      here.all fun c => e.pre.fetchPlace c == e.pre.fetchPlace e.pre.fetchContext) &&
      noteFetch (if e.synchronizing then [] else after) rest

/-- Every alteration of the execution keeps both tables and note 9; `before` holds the events
already passed, nearest first. -/
def wellSynchronizedFrom : List Event → List Event → Bool
  | _, [] => true
  | before, e :: rest =>
    (dataSyncTable.all fun r => r.kept Event.dataAffected before e rest) &&
      (fetchSyncTable.all fun r => r.kept Event.fetchAffected before e rest) &&
      noteSF e rest && wellSynchronizedFrom (e :: before) rest

/-- The well-synchronized predicate on executions (R500, D29). -/
def wellSynchronized (l : List Event) : Bool := wellSynchronizedFrom [] l && noteFetch [] l

end Sys2Proof
end

