-- ==== Sys2Proof/Certificates/Slice0/Obligations.lean ====
section
/-! DEFINITION. The statements for the provers. `R<n>` names the numbered rule of spec/ a statement
formalises; a log number names the model's own choice it rests on. "Log 18" says that a rule used
holds passages the spec marks as general knowledge or as its own decision. -/

namespace Sys2Proof.Statements

open Machine

/-! ## Words the statements share -/

/-- Every byte of memory reads as before. -/
def sameMemory (s t : State) : Prop := ∀ a, Memory.read t.mem a = Memory.read s.mem a

/-- Every general register but `r` is as before. -/
def gprsBut (r : RegNum) (s t : State) : Prop := ∀ q, q ≠ r → t.getGpr q = s.getGpr q

/-- XLEN as a number (R5). -/
def xlen (s : State) : Nat := if s.cfg.xlen64 then 64 else 32

/-- A value as the operation width of the mode reads it, signed (R294). -/
def modeInt (s : State) (v : DWord) : Int := if s.mode64 then v.toInt else (lo32 v).toInt

/-- A value as the operation width of the mode reads it, unsigned (R294). -/
def modeNat (s : State) (v : DWord) : Nat := if s.mode64 then v.toNat else (lo32 v).toNat

/-- The operation width of the mode (R294). -/
def modeWidth (s : State) : Nat := if s.mode64 then 64 else 32

/-- CR0 of `t` reports `r` as R44 says: LT, GT, EQ by the signed comparison with 0, SO the final
XER[SO]. The other CR fields are those of `s`. -/
def cr0Reports (s t : State) (r : DWord) : Prop :=
  srcBit t.cr 0 = decide (modeInt s r < 0) ∧ srcBit t.cr 1 = decide (0 < modeInt s r) ∧
    srcBit t.cr 2 = decide (modeInt s r = 0) ∧ srcBit t.cr 3 = t.so ∧
    ∀ b : RegNum, 4 ≤ b.toNat → srcBit t.cr b = srcBit s.cr b

/-- What a record bit does to CR (R45, R276): Rc = 0 nothing; Rc = 1 with a defined result R44; with
an undefined one bits 0-2 are open, bit 3 is the final XER[SO] and the other fields stay. -/
def recorded (s t : State) (rc undef : Bool) (r : DWord) : Prop :=
  (rc = false → t.cr = s.cr) ∧ (rc = true → undef = false → cr0Reports s t r) ∧
    (rc = true → undef = true →
      srcBit t.cr 3 = t.so ∧ ∀ b : RegNum, 4 ≤ b.toNat → srcBit t.cr b = srcBit s.cr b)

/-- The OE rule (R290): with OE = 1 OV takes the condition and SO accumulates it; with OE = 0 both
stay. CA and the byte count are not in its reach. -/
def overflowRule (s t : State) (oe ov : Bool) : Prop :=
  (oe = false → t.ov = s.ov ∧ t.so = s.so) ∧ (oe = true → t.ov = ov ∧ t.so = (s.so || ov))

/-- XER outside SO and OV is as before (R279). -/
def xerRestKept (s t : State) : Prop :=
  ∀ b, b ≠ 30 → b ≠ 31 → t.xer.getLsbD b = s.xer.getLsbD b

/-- Nothing but GPRs, XER, CR and pc, which moved on, differs. -/
def arithFrame (rd : RegNum) (s t : State) : Prop :=
  gprsBut rd s t ∧ sameMemory s t ∧
    t = { s with gpr := t.gpr, xer := t.xer, cr := t.cr, pc := s.nextPc }

/-- One exception entry (R445): `t` is `s` with exception `e` taken, SRR0 from `a`, information
`info`. MSR, its reserved bits too, SRR1 and pc are said bit by bit; pc is the vector, its high half 0
where the entry leaves 32-bit mode (R166, log 21). -/
def entered (s t : State) (e : Exc) (a info : DWord) : Prop :=
  t.srr0 = wordAligned (s.ea a) ∧
    (∀ b, infoMask.getLsbD b = true → t.srr1.getLsbD b = info.getLsbD b) ∧
    (∀ b, b < xlen s → infoMask.getLsbD b = false → (msrDefined s.cfg).getLsbD b = true →
      t.srr1.getLsbD b = s.msr.getLsbD b) ∧
    (∀ b ∈ [msrPOW, msrEE, msrPR, msrFP, msrFE0, msrSE, msrBE, msrFE1, msrIR, msrDR, msrRI],
      t.msrBit b = false) ∧
    (∀ b, (msrDefined s.cfg).getLsbD b = false → t.msrBit b = false) ∧
    t.msrBit msrILE = s.msrBit msrILE ∧ t.msrBit msrIP = s.msrBit msrIP ∧
    t.msrBit msrLE = s.msrBit msrILE ∧
    t.msrBit msrME = (s.msrBit msrME && !decide (e = .machineCheck)) ∧
    t.pc = (if s.msrBit msrIP then (if t.mode64 then 0xFFFFFFFFFFF00000 else 0xFFF00000)
      else 0) + e.offset

/-- The boundary of `s`, with the state `t`, executes an instruction: nothing is requested and the
processor runs (R451). -/
def quietBoundary (s t : State) : Prop :=
  t = s.atBoundary ∧ s.nextInput.reset = none ∧ s.nextInput.mcRequest = false ∧
    t.checkstop = false ∧ t.msrBit msrLE = false ∧ (t.cfg.hasPow = true → t.msrBit msrPOW = false) ∧
    (t.msrBit msrEE = true → s.nextInput.extInt = false ∧ t.decRequest = false)

end Sys2Proof.Statements

open Sys2Proof Sys2Proof.Machine Sys2Proof.Statements

/-! ## Encoding -/

/-- Decode and encode agree: every instruction, with every operand at every value its field admits,
decodes from its own word (R211 to R214, R220). Log 18. -/
def Obligations.DecodeEncode : Prop := ∀ i : Instr, decode (encode i) = .ok i

/-- The decoder accepts no word but an instruction's own: reserved bits must be 0 (R223). Log 18. -/
def Obligations.EncodeDecode : Prop := ∀ (w : Word) (i : Instr), decode w = .ok i → encode i = w

/-- The ten words R226 writes out (layouts XFX, X, SC and XL), and one of each other layout of R211:
I, B, D with and without a CR field, X with no operand and with a segment register, XFL, XO, decode
to what they stand for. Log 18. -/
def Obligations.SampleWords : Prop :=
  decode 0x7C6C42E6 = .ok (.mftb 3 268) ∧ decode 0x7C6D42E6 = .ok (.mftb 3 269) ∧
    decode 0x7C8103A6 = .ok (.mtspr 4 1) ∧ decode 0x7CA802A6 = .ok (.mfspr 5 8) ∧
    decode 0x7CC903A6 = .ok (.mtspr 6 9) ∧ decode 0x7CF603A6 = .ok (.mtspr 7 22) ∧
    decode 0x7C6000A6 = .ok (.mfmsr 3) ∧ decode 0x44000002 = .ok .sc ∧
    decode 0x4C000064 = .ok .rfi ∧ decode 0x4E800020 = .ok (.bclr 20 0 false) ∧
    decode 0x7C642FD7 = .ok (.divw 3 4 5 true true) ∧
    decode 0xFDFE0D8E = .ok (.mtfsf 0xFF 1 false) ∧ decode 0x48000021 = .ok (.b 8 false true) ∧
    decode 0x4200FFF8 = .ok (.bc 16 0 0x3FFE false false) ∧
    decode 0x80640008 = .ok (.lwz 3 4 8) ∧ decode 0x2C83FFFB = .ok (.cmpi 1 false 3 0xFFFB) ∧
    decode 0x7C0004AC = .ok .sync ∧ decode 0x7C8501A4 = .ok (.mtsr 4 5)

/-! ## Integer arithmetic -/

/-- `addi` (R412): rD is (rA|0) + SIMM modulo 2^XLEN, pc moves on, no flag and no exception; its
word is 0x38000000 with rD, rA and SIMM in the places of the D format (R211, R212, R220). Log 18. -/
def Obligations.AddiResult : Prop :=
  ∀ (rd ra : RegNum) (simm : BitVec 16) (s : State),
    (encode (.addi rd ra simm)).toNat =
      0x38000000 + rd.toNat * 2 ^ 21 + ra.toNat * 2 ^ 16 + simm.toNat ∧
    ∃ t, exec (.addi rd ra simm) s = .next t ∧
    ((t.getGpr rd).toNat : Int) =
      ((if ra = 0 then 0 else ((s.getGpr ra).toNat : Int)) + simm.toInt) % 2 ^ xlen s ∧
    gprsBut rd s t ∧ sameMemory s t ∧ t = { s with gpr := t.gpr, pc := s.nextPc }

/-- `addic.` (R277): rD is rA + SIMM, GPR0 for rA = 0; CA is the carry out of the operation width;
CR0 reports the result; OV and SO stay. Log 18. -/
def Obligations.AddicDotResult : Prop :=
  ∀ (rd ra : RegNum) (simm : BitVec 16) (s : State), ∃ t, exec (.addicDot rd ra simm) s = .next t ∧
    ((t.getGpr rd).toNat : Int) = (((s.getGpr ra).toNat : Int) + simm.toInt) % 2 ^ xlen s ∧
    t.ca = decide (2 ^ modeWidth s ≤ modeNat s (s.getGpr ra) + modeNat s (simm.signExtend 64)) ∧
    t.ov = s.ov ∧ t.so = s.so ∧ cr0Reports s t (t.getGpr rd) ∧
    (∀ b, b ≠ 29 → t.xer.getLsbD b = s.xer.getLsbD b) ∧ arithFrame rd s t

/-- `andi.` and `andis.` (R278, R280): the AND with the immediate, sixteen zeros to its left or
right; CR0 reports it; XER stays. Log 18. -/
def Obligations.AndImmediateResult : Prop :=
  ∀ (rs ra : RegNum) (uimm : BitVec 16) (s : State),
    (∃ t, exec (.andiDot rs ra uimm) s = .next t ∧
      t.getGpr ra = s.getGpr rs &&& uimm.setWidth 64 ∧ cr0Reports s t (t.getGpr ra) ∧
      t.xer = s.xer ∧ arithFrame ra s t) ∧
    ∃ t, exec (.andisDot rs ra uimm) s = .next t ∧
      t.getGpr ra = s.getGpr rs &&& (uimm ++ 0#16).setWidth 64 ∧ cr0Reports s t (t.getGpr ra) ∧
      t.xer = s.xer ∧ arithFrame ra s t

/-- `subfc` (R289, R290, R291): rD is rB - rA modulo 2^XLEN; CA says that there is no borrow; with
OE = 1 OV says that the signed difference does not fit the operation width. Log 18. -/
def Obligations.SubfcResult : Prop :=
  ∀ (rd ra rb : RegNum) (oe rc : Bool) (s : State), ∃ t, exec (.subfc rd ra rb oe rc) s = .next t ∧
    ((t.getGpr rd).toNat : Int) =
      (((s.getGpr rb).toNat : Int) - ((s.getGpr ra).toNat : Int)) % 2 ^ xlen s ∧
    t.ca = decide (modeNat s (s.getGpr ra) ≤ modeNat s (s.getGpr rb)) ∧
    overflowRule s t oe
      (!decide (-2 ^ (modeWidth s - 1) ≤ modeInt s (s.getGpr rb) - modeInt s (s.getGpr ra) ∧
        modeInt s (s.getGpr rb) - modeInt s (s.getGpr ra) < 2 ^ (modeWidth s - 1))) ∧
    recorded s t rc false (t.getGpr rd) ∧
    (∀ b, b ≠ 29 → b ≠ 30 → b ≠ 31 → t.xer.getLsbD b = s.xer.getLsbD b) ∧ arithFrame rd s t

/-- `mulhw` and `mulhwu` (R281, R282): the low-order word of rD is the high word of the product; XER
stays; in 64-bit mode CR0 bits 0-2 are open (R45). Log 18. -/
def Obligations.MultiplyHighResult : Prop :=
  ∀ (rd ra rb : RegNum) (rc : Bool) (s : State),
    (∃ t, exec (.mulhw rd ra rb rc) s = .next t ∧
      (lo32 (t.getGpr rd)).toInt = ((s.gprWord ra).toInt * (s.gprWord rb).toInt) / 2 ^ 32 ∧
      recorded s t rc s.mode64 (t.getGpr rd) ∧ t.xer = s.xer ∧ arithFrame rd s t) ∧
    ∃ t, exec (.mulhwu rd ra rb rc) s = .next t ∧
      (lo32 (t.getGpr rd)).toNat = ((s.gprWord ra).toNat * (s.gprWord rb).toNat) / 2 ^ 32 ∧
      recorded s t rc s.mode64 (t.getGpr rd) ∧ t.xer = s.xer ∧ arithFrame rd s t

/-- `mullw` (R285): the product modulo 2^XLEN; with OE = 1 OV says that 32 bits cannot hold it.
`mulld` on a 64-bit implementation (R286): the same with registers and 64 bits. Log 18. -/
def Obligations.MultiplyLowResult : Prop :=
  (∀ (rd ra rb : RegNum) (oe rc : Bool) (s : State), ∃ t, exec (.mullw rd ra rb oe rc) s = .next t ∧
    ((t.getGpr rd).toNat : Int) =
      ((s.gprWord ra).toInt * (s.gprWord rb).toInt) % 2 ^ xlen s ∧
    overflowRule s t oe
      (!decide (-2 ^ 31 ≤ (s.gprWord ra).toInt * (s.gprWord rb).toInt ∧
        (s.gprWord ra).toInt * (s.gprWord rb).toInt < 2 ^ 31)) ∧
    recorded s t rc false (t.getGpr rd) ∧ xerRestKept s t ∧ arithFrame rd s t) ∧
  ∀ (rd ra rb : RegNum) (oe rc : Bool) (s : State), s.cfg.xlen64 = true →
    ∃ t, exec (.mulld rd ra rb oe rc) s = .next t ∧
      ((t.getGpr rd).toNat : Int) = ((s.getGpr ra).toInt * (s.getGpr rb).toInt) % 2 ^ 64 ∧
      overflowRule s t oe
        (!decide (-2 ^ 63 ≤ (s.getGpr ra).toInt * (s.getGpr rb).toInt ∧
          (s.getGpr ra).toInt * (s.getGpr rb).toInt < 2 ^ 63)) ∧
      recorded s t rc false (t.getGpr rd) ∧ xerRestKept s t ∧ arithFrame rd s t

/-- `divw` and `divwu` (R283, R284): a quotient that 32 bits can represent is the low-order word of
rD; otherwise the value is open and OV reports it with OE = 1; nothing traps. CR0 bits 0-2 are open
in 64-bit mode and for a bad quotient (R45). Log 18. -/
def Obligations.DivideWordResult : Prop :=
  ∀ (rd ra rb : RegNum) (oe rc : Bool) (s : State),
    (∃ t bad, exec (.divw rd ra rb oe rc) s = .next t ∧
      bad = decide ((s.gprWord rb).toInt = 0 ∨
        ((s.gprWord ra).toInt = -2 ^ 31 ∧ (s.gprWord rb).toInt = -1)) ∧
      (bad = false →
        (lo32 (t.getGpr rd)).toInt = (s.gprWord ra).toInt.tdiv (s.gprWord rb).toInt) ∧
      overflowRule s t oe bad ∧ recorded s t rc (s.mode64 || bad) (t.getGpr rd) ∧
      xerRestKept s t ∧ arithFrame rd s t) ∧
    ∃ t bad, exec (.divwu rd ra rb oe rc) s = .next t ∧ bad = decide ((s.gprWord rb).toNat = 0) ∧
      (bad = false →
        (lo32 (t.getGpr rd)).toNat = (s.gprWord ra).toNat / (s.gprWord rb).toNat) ∧
      overflowRule s t oe bad ∧ recorded s t rc (s.mode64 || bad) (t.getGpr rd) ∧
      xerRestKept s t ∧ arithFrame rd s t

/-- `divd` and `divdu` on a 64-bit implementation (R287, R288): as the word forms over 64 bits; CR0
bits 0-2 are open for a bad quotient only. The quotient is R283's. Log 18. -/
def Obligations.DivideDoubleResult : Prop :=
  ∀ (rd ra rb : RegNum) (oe rc : Bool) (s : State), s.cfg.xlen64 = true →
    (∃ t bad, exec (.divd rd ra rb oe rc) s = .next t ∧
      bad = decide ((s.getGpr rb).toInt = 0 ∨
        ((s.getGpr ra).toInt = -2 ^ 63 ∧ (s.getGpr rb).toInt = -1)) ∧
      (bad = false → (t.getGpr rd).toInt = (s.getGpr ra).toInt.tdiv (s.getGpr rb).toInt) ∧
      overflowRule s t oe bad ∧ recorded s t rc bad (t.getGpr rd) ∧
      xerRestKept s t ∧ arithFrame rd s t) ∧
    ∃ t bad, exec (.divdu rd ra rb oe rc) s = .next t ∧ bad = decide ((s.getGpr rb).toNat = 0) ∧
      (bad = false → (t.getGpr rd).toNat = (s.getGpr ra).toNat / (s.getGpr rb).toNat) ∧
      overflowRule s t oe bad ∧ recorded s t rc bad (t.getGpr rd) ∧
      xerRestKept s t ∧ arithFrame rd s t

/-! ## Compares and traps -/

/-- CR field `f` of `t` reports a comparison (R47); the other fields and everything else but pc are
those of `s`. -/
def Sys2Proof.Statements.compared (f : FieldNum) (lt gt : Prop) [Decidable lt] [Decidable gt]
    (s t : State) : Prop :=
  (field4 t.cr f).getLsbD 3 = decide lt ∧ (field4 t.cr f).getLsbD 2 = decide gt ∧
    (field4 t.cr f).getLsbD 1 = decide (¬lt ∧ ¬gt) ∧ (field4 t.cr f).getLsbD 0 = s.so ∧
    (∀ g, g ≠ f → field4 t.cr g = field4 s.cr g) ∧ sameMemory s t ∧
    t = { s with cr := t.cr, pc := s.nextPc }

/-- The four compares (R413 to R416), on words with L = 0 and on registers with L = 1, where the
form exists. Log 18. -/
def Obligations.CompareResult : Prop :=
  ∀ (f : FieldNum) (l : Bool) (ra rb : RegNum) (imm : BitVec 16) (s : State),
    (l = true → s.cfg.xlen64 = true) →
    (∃ t, exec (.cmp f l ra rb) s = .next t ∧
      compared f (signedOperand l (s.getGpr ra) < signedOperand l (s.getGpr rb))
        (signedOperand l (s.getGpr rb) < signedOperand l (s.getGpr ra)) s t) ∧
    (∃ t, exec (.cmpi f l ra imm) s = .next t ∧
      compared f (signedOperand l (s.getGpr ra) < imm.toInt)
        (imm.toInt < signedOperand l (s.getGpr ra)) s t) ∧
    (∃ t, exec (.cmpl f l ra rb) s = .next t ∧
      compared f (unsignedOperand l (s.getGpr ra) < unsignedOperand l (s.getGpr rb))
        (unsignedOperand l (s.getGpr rb) < unsignedOperand l (s.getGpr ra)) s t) ∧
    ∃ t, exec (.cmpli f l ra imm) s = .next t ∧
      compared f (unsignedOperand l (s.getGpr ra) < imm.toNat)
        (imm.toNat < unsignedOperand l (s.getGpr ra)) s t

/-- Some condition TO selects holds of the two words (R406). -/
def Sys2Proof.Statements.trapSelected (c : BitVec 5) (a b : Word) : Prop :=
  (c.getLsbD 4 = true ∧ a.toInt < b.toInt) ∨ (c.getLsbD 3 = true ∧ b.toInt < a.toInt) ∨
    (c.getLsbD 2 = true ∧ a = b) ∨ (c.getLsbD 1 = true ∧ a.toNat < b.toNat) ∨
    (c.getLsbD 0 = true ∧ b.toNat < a.toNat)

/-- `tw` and `twi` (R406, R407, R448): where no selected condition holds only pc moves on; where one
holds the trap type of program exception is taken with SRR0 at the instruction, and the general
registers and all memory stay. Log 18. -/
def Obligations.TrapOnCondition : Prop :=
  ∀ (c : BitVec 5) (ra rb : RegNum) (imm : BitVec 16) (s : State), ∀ i b,
    (i = Instr.tw c ra rb ∧ b = s.gprWord rb ∨ i = Instr.twi c ra imm ∧ b = imm.signExtend 32) →
    (¬trapSelected c (s.gprWord ra) b → exec i s = .next { s with pc := s.nextPc }) ∧
    (trapSelected c (s.gprWord ra) b →
      ∃ t, exec i s = .next t ∧ entered s t (.program .trap) s.pc 0x00020000 ∧
        t.gpr = s.gpr ∧ sameMemory s t)

/-! ## Condition register -/

/-- A CR logical instruction writes the one bit crbD with `op` of bits crbA and crbB (R274). -/
def Sys2Proof.Statements.crOp (make : RegNum → RegNum → RegNum → Instr) (op : Bool → Bool → Bool) :
    Prop :=
  ∀ (d a b : RegNum) (s : State), ∃ t, exec (make d a b) s = .next t ∧
    srcBit t.cr d = op (srcBit s.cr a) (srcBit s.cr b) ∧
    (∀ q, q ≠ d → srcBit t.cr q = srcBit s.cr q) ∧ sameMemory s t ∧
    t = { s with cr := t.cr, pc := s.nextPc }

/-- The eight CR logical instructions (R274). Log 18. -/
def Obligations.CrLogicalResult : Prop :=
  crOp .crand (fun a b => a && b) ∧ crOp .cror (fun a b => a || b) ∧
    crOp .crxor (fun a b => Bool.xor a b) ∧ crOp .crnand (fun a b => !(a && b)) ∧
    crOp .crnor (fun a b => !(a || b)) ∧ crOp .creqv (fun a b => !Bool.xor a b) ∧
    crOp .crandc (fun a b => a && !b) ∧ crOp .crorc (fun a b => a || !b)

/-- `mtcrf` (R271): field k comes from the same bits of rS's low-order word where bit k of CRM is 1
and stays where it is 0. `mcrf` (R272) copies one field. `mfcr` (R275) puts CR, zero-extended, into
rD. Nothing else changes. Log 18. -/
def Obligations.CrMoves : Prop :=
  (∀ (rs : RegNum) (crm : BitVec 8) (s : State), ∃ t, exec (.mtcrf rs crm) s = .next t ∧
      (∀ k : FieldNum, field4 t.cr k =
        if crm.getLsbD (7 - k.toNat) then field4 (s.gprWord rs) k else field4 s.cr k) ∧
      sameMemory s t ∧ t = { s with cr := t.cr, pc := s.nextPc }) ∧
    (∀ (d f : FieldNum) (s : State), ∃ t, exec (.mcrf d f) s = .next t ∧
      field4 t.cr d = field4 s.cr f ∧ (∀ g, g ≠ d → field4 t.cr g = field4 s.cr g) ∧
      sameMemory s t ∧ t = { s with cr := t.cr, pc := s.nextPc }) ∧
    ∀ (rd : RegNum) (s : State), ∃ t, exec (.mfcr rd) s = .next t ∧
    (t.getGpr rd).toNat = s.cr.toNat ∧ gprsBut rd s t ∧ sameMemory s t ∧
    t = { s with gpr := t.gpr, pc := s.nextPc }

/-- `mcrxr` (R273): the CR field receives SO, OV, CA and, where bit 3 was last written as 0, a 0;
XER bits 0-3 become 0 and the byte count stays. Log 18. -/
def Obligations.McrxrResult : Prop :=
  ∀ (f : FieldNum) (s : State), ∃ t, exec (.mcrxr f) s = .next t ∧
    (field4 t.cr f).getLsbD 3 = s.so ∧ (field4 t.cr f).getLsbD 2 = s.ov ∧
    (field4 t.cr f).getLsbD 1 = s.ca ∧
    (s.xer.getLsbD 28 = false → (field4 t.cr f).getLsbD 0 = false) ∧
    (∀ g, g ≠ f → field4 t.cr g = field4 s.cr g) ∧
    (∀ b, t.xer.getLsbD b = (s.xer.getLsbD b && decide (b < 28))) ∧
    sameMemory s t ∧ t = { s with cr := t.cr, xer := t.xer, pc := s.nextPc }

/-! ## FPSCR -/

/-- Bit `b` (source numbering) is an exception bit (R52). -/
def Sys2Proof.Statements.isExc (b : RegNum) : Bool :=
  decide (3 ≤ b.toNat ∧ b.toNat ≤ 12) || decide (21 ≤ b.toNat ∧ b.toNat ≤ 23)

/-- Bits 1 and 2, FEX and VX, are computed (R300 c). -/
def Sys2Proof.Statements.isComputed (b : RegNum) : Bool := b == 1 || b == 2

/-- What the record bit of an FPSCR instruction does (R307): CR1 is FPSCR bits 0-3 after the update;
every other field stays. -/
def Sys2Proof.Statements.recordedFp (s t : State) (rc : Bool) : Prop :=
  (rc = false → t.cr = s.cr) ∧
    (rc = true → field4 t.cr 1 = field4 t.fpscrNow 0 ∧
      ∀ g : FieldNum, g ≠ 1 → field4 t.cr g = field4 s.cr g)

/-- FPSCR's bits other than FEX and VX read as stored; VX is the OR of the invalid operation
exceptions and FEX the OR of the exceptions masked by their enables (R54, R55). -/
def Obligations.FexVxComputed : Prop :=
  ∀ s : State,
    (∀ b : RegNum, isComputed b = false → srcBit s.fpscrNow b = srcBit s.fpscr b) ∧
    (srcBit s.fpscrNow 2 = true ↔
      ∃ b : RegNum, srcBit s.fpscr b = true ∧
        (7 ≤ b.toNat ∧ b.toNat ≤ 12 ∨ 21 ≤ b.toNat ∧ b.toNat ≤ 23)) ∧
    srcBit s.fpscrNow 1 =
      ((srcBit s.fpscrNow 2 && srcBit s.fpscr 24) || (srcBit s.fpscr 3 && srcBit s.fpscr 25) ||
        (srcBit s.fpscr 4 && srcBit s.fpscr 26) || (srcBit s.fpscr 5 && srcBit s.fpscr 27) ||
        (srcBit s.fpscr 6 && srcBit s.fpscr 28))

/-- `mcrfs` with MSR[FP] = 1 and floating-point exceptions disabled (R301): the CR field receives
the FPSCR field with FEX and VX as computed, its reserved bit where that was last written as 0; FX
and the exception bits of the copied field become 0; nothing else changes. Log 18. -/
def Obligations.McrfsResult : Prop :=
  ∀ (d f : FieldNum) (s : State), s.msrBit msrFP = true → s.msrBit msrFE0 = false →
    s.msrBit msrFE1 = false →
    ∃ t, exec (.mcrfs d f) s = .next t ∧
      (∀ k, k < 3 → (field4 t.cr d).getLsbD k = (field4 s.fpscrNow f).getLsbD k) ∧
      (f ≠ 5 ∨ srcBit s.fpscr 20 = false →
        (field4 t.cr d).getLsbD 3 = (field4 s.fpscrNow f).getLsbD 3) ∧
      (∀ b : RegNum, srcBit t.fpscr b =
        (srcBit s.fpscr b && !(decide (b.toNat / 4 = f.toNat) && (b == 0 || isExc b)))) ∧
      (∀ g, g ≠ d → field4 t.cr g = field4 s.cr g) ∧ sameMemory s t ∧
      t = { s with cr := t.cr, fpscr := t.fpscr, pc := s.nextPc }

/-- `mtfsfi` and `mtfsf` with MSR[FP] = 1 and floating-point exceptions disabled (R302, R303): the
selected fields take the immediate or the low-order word of the FPR, but FEX and VX are not written;
FX changes only with its field; a write of FI (field 3) that leaves XX out ORs the new FI into XX
(R59, log 44); CR1 follows Rc; nothing else changes. Log 18. -/
def Obligations.FpscrFieldWrites : Prop :=
  ∀ (d : FieldNum) (imm : BitVec 4) (fm : BitVec 8) (frb : RegNum) (rc : Bool) (s : State),
    s.msrBit msrFP = true → s.msrBit msrFE0 = false → s.msrBit msrFE1 = false →
    (∃ t, exec (.mtfsfi d imm rc) s = .next t ∧
      (∀ b : RegNum, srcBit t.fpscr b =
        if b.toNat / 4 = d.toNat ∧ isComputed b = false then imm.getLsbD (3 - b.toNat % 4)
        else if b = 6 ∧ d = 3 then srcBit s.fpscr 6 || imm.getLsbD 1
        else srcBit s.fpscr b) ∧
      recordedFp s t rc ∧ sameMemory s t ∧
      t = { s with cr := t.cr, fpscr := t.fpscr, pc := s.nextPc }) ∧
    ∃ t, exec (.mtfsf fm frb rc) s = .next t ∧
      (∀ b : RegNum, srcBit t.fpscr b =
        if fm.getLsbD (7 - b.toNat / 4) = true ∧ isComputed b = false
        then srcBit (lo32 (s.getFpr frb)) b
        else if b = 6 ∧ fm.getLsbD 4 = true
        then srcBit s.fpscr 6 || srcBit (lo32 (s.getFpr frb)) 14 else srcBit s.fpscr b) ∧
      recordedFp s t rc ∧ sameMemory s t ∧
      t = { s with cr := t.cr, fpscr := t.fpscr, pc := s.nextPc }

/-- `mtfsb0` and `mtfsb1` with MSR[FP] = 1 and floating-point exceptions disabled (R304, R305, R53):
one bit is cleared or set, FEX and VX never; setting FI (bit 14) sets XX too (R59, log 44); setting an
exception bit that was 0, XX in that way included, sets FX. Log 18. -/
def Obligations.FpscrBitWrites : Prop :=
  ∀ (d : RegNum) (rc : Bool) (s : State),
    s.msrBit msrFP = true → s.msrBit msrFE0 = false → s.msrBit msrFE1 = false →
    (∃ t, exec (.mtfsb0 d rc) s = .next t ∧
      (∀ b : RegNum, srcBit t.fpscr b = (srcBit s.fpscr b && (b != d || isComputed b))) ∧
      recordedFp s t rc ∧ sameMemory s t ∧
      t = { s with cr := t.cr, fpscr := t.fpscr, pc := s.nextPc }) ∧
    ∃ t, exec (.mtfsb1 d rc) s = .next t ∧
      (∀ b : RegNum, srcBit t.fpscr b =
        (srcBit s.fpscr b || (b == d && !isComputed b) || (b == 6 && d == 14) ||
          (b == 0 && (isExc d && !srcBit s.fpscr d || d == 14 && !srcBit s.fpscr 6)))) ∧
      recordedFp s t rc ∧ sameMemory s t ∧
      t = { s with cr := t.cr, fpscr := t.fpscr, pc := s.nextPc }

/-- `mffs` with MSR[FP] = 1 and floating-point exceptions disabled (R306): the FPR's low-order word
is FPSCR, its reserved bit where that was last written as 0; no other FPR changes. Log 18. -/
def Obligations.MffsResult : Prop :=
  ∀ (frd : RegNum) (rc : Bool) (s : State),
    s.msrBit msrFP = true → s.msrBit msrFE0 = false → s.msrBit msrFE1 = false →
    ∃ t, exec (.mffs frd rc) s = .next t ∧
      (∀ b : RegNum, b ≠ 20 ∨ srcBit s.fpscr 20 = false →
        srcBit (lo32 (t.getFpr frd)) b = srcBit s.fpscrNow b) ∧
      (∀ q, q ≠ frd → t.getFpr q = s.getFpr q) ∧ recordedFp s t rc ∧ sameMemory s t ∧
      t = { s with fpr := t.fpr, cr := t.cr, pc := s.nextPc }

/-- The six FPSCR instructions, with all their operands. -/
def Sys2Proof.Statements.fpscrInstrs (d f : FieldNum) (r : RegNum) (imm : BitVec 4) (fm : BitVec 8)
    (rc : Bool) : List Instr :=
  [.mcrfs d f, .mtfsfi d imm rc, .mtfsf fm r rc, .mtfsb0 r rc, .mtfsb1 r rc, .mffs r rc]

/-- With MSR[FP] = 0 each of the six takes the floating-point unavailable exception at itself and
has no other effect (R300, R436). Log 18. -/
def Obligations.FpUnavailable : Prop :=
  ∀ (d f : FieldNum) (r : RegNum) (imm : BitVec 4) (fm : BitVec 8) (rc : Bool) (s : State),
    s.msrBit msrFP = false →
    ∀ i ∈ fpscrInstrs d f r imm fm rc, ∃ t, exec i s = .next t ∧
      entered s t .fpUnavailable s.pc 0 ∧ sameMemory s t ∧
      t = { s with srr0 := t.srr0, srr1 := t.srr1, msr := t.msr, pc := t.pc, storedSinceSync := [],
                   lastExc := some .fpUnavailable }

/-- After each of the six with a floating-point exception mode on, the enabled program exception is
taken at the instruction exactly when its FPSCR update leaves FEX = 1; both imprecise modes are
treated as precise, and the update is that of the disabled mode (R310, R437, D24, log 19). Log 18. -/
def Obligations.FpEnabledException : Prop :=
  ∀ (d f : FieldNum) (r : RegNum) (imm : BitVec 4) (fm : BitVec 8) (rc : Bool) (s : State),
    s.msrBit msrFP = true → (s.msrBit msrFE0 = true ∨ s.msrBit msrFE1 = true) →
    ∀ i ∈ fpscrInstrs d f r imm fm rc, ∃ t, exec i s = .next t ∧
      (fpscrFEX t.fpscr = true → entered s t (.program .fpEnabled) s.pc 0x00100000) ∧
      (fpscrFEX t.fpscr = false → t.pc = s.nextPc ∧ t.msr = s.msr ∧ t.srr0 = s.srr0) ∧
      (∀ u, exec i { s with msr := s.msr &&& ~~~0x900#64 } = .next u →
        t.fpscr = u.fpscr ∧ t.cr = u.cr ∧ t.fpr = u.fpr) ∧
      t.gpr = s.gpr ∧ t.xer = s.xer ∧ sameMemory s t

/-- A change of MSR[FE0] or MSR[FE1] by `mtmsr`, `mtmsrd`, `rfi` or `rfid` that turns a mode on
while FEX = 1 is followed by the enabled program exception, with SRR0 at the next instruction and
the information bit that says so (R367, R437, R446, R448, log 19). The new MSR and pc are those the
instruction gives with FPSCR clear. Log 18. -/
def Obligations.MsrChangeRaisesFp : Prop :=
  ∀ (r : RegNum) (s u : State), fpscrFEX s.fpscr = true →
    ∀ i ∈ [Instr.mtmsr r, .mtmsrd r, .rfi, .rfid], exec i { s with fpscr := 0 } = .next u →
      (u.msrBit msrFE0 ≠ s.msrBit msrFE0 ∨ u.msrBit msrFE1 ≠ s.msrBit msrFE1) →
      (u.msrBit msrFE0 = true ∨ u.msrBit msrFE1 = true) →
      ∃ t, exec i s = .next t ∧ entered u t (.program .fpEnabled) u.pc 0x00110000 ∧
        t.gpr = s.gpr ∧ t.fpscr = s.fpscr ∧ sameMemory s t

/-! ## Branches -/

/-- BO{k} (R216). -/
def Sys2Proof.Statements.bo (v : BitVec 5) (k : Nat) : Bool := v.getLsbD (4 - k)

/-- CTR after a branch (R321, R328): one less modulo 2^XLEN when BO{2} = 0. -/
def Sys2Proof.Statements.ctrRule (v : BitVec 5) (s t : State) : Prop :=
  (bo v 2 = true → t.ctr = s.ctr) ∧
    (bo v 2 = false → (t.ctr.toNat : Int) = ((s.ctr.toNat : Int) - 1) % 2 ^ xlen s)

/-- The branch is taken (R321, R322): the test of the decremented CTR, over the width of the mode,
and the test of CR{BI}. -/
def Sys2Proof.Statements.takenRule (v bi : BitVec 5) (s t : State) : Prop :=
  (bo v 2 = true ∨ (modeNat s t.ctr ≠ 0 ∧ bo v 3 = false) ∨ (modeNat s t.ctr = 0 ∧ bo v 3 = true)) ∧
    (bo v 0 = true ∨ srcBit s.cr bi = bo v 1)

/-- LR after a branch (R327): with LK = 1 the address of the next instruction. -/
def Sys2Proof.Statements.linkRule (lk : Bool) (s t : State) : Prop :=
  (lk = true → t.lr.toNat = (s.pc.toNat + 4) % 2 ^ modeWidth s) ∧ (lk = false → t.lr = s.lr)

/-- pc after a branch: the target where it is taken, else the next instruction. -/
def Sys2Proof.Statements.goesTo (taken : Prop) (target : Int) (s t : State) : Prop :=
  (taken → (t.pc.toNat : Int) = target % 2 ^ modeWidth s) ∧
    (¬taken → t.pc.toNat = (s.pc.toNat + 4) % 2 ^ modeWidth s)

/-- A branch changes CTR, LR and pc at most. -/
def Sys2Proof.Statements.branchFrame (s t : State) : Prop :=
  sameMemory s t ∧ t = { s with ctr := t.ctr, lr := t.lr, pc := t.pc }

/-- `b` and `bc` (R321 to R324, R327 to R329), from a word-aligned pc. Log 18. -/
def Obligations.BranchRelative : Prop :=
  ∀ (li : BitVec 24) (bd : BitVec 14) (v bi : BitVec 5) (aa lk : Bool) (s : State),
    s.pcAligned = true →
    (∃ t, exec (.b li aa lk) s = .next t ∧ t.ctr = s.ctr ∧ linkRule lk s t ∧
      goesTo True ((if aa then 0 else (s.pc.toNat : Int)) + 4 * li.toInt) s t ∧ branchFrame s t) ∧
    ∃ t, exec (.bc v bi bd aa lk) s = .next t ∧ ctrRule v s t ∧ linkRule lk s t ∧
      goesTo (takenRule v bi s t) ((if aa then 0 else (s.pc.toNat : Int)) + 4 * bd.toInt) s t ∧
      branchFrame s t

/-- `bclr` and, where BO asks for no decrement, `bcctr` (R325, R326): the target is the register as
it was before the link update, its two low-order bits ignored. Log 18. -/
def Obligations.BranchRegister : Prop :=
  ∀ (v bi : BitVec 5) (lk : Bool) (s : State),
    (∃ t, exec (.bclr v bi lk) s = .next t ∧ ctrRule v s t ∧ linkRule lk s t ∧
      goesTo (takenRule v bi s t) (4 * (s.lr.toNat / 4 : Nat)) s t ∧ branchFrame s t) ∧
    (bo v 2 = true → ∃ t, exec (.bcctr v bi lk) s = .next t ∧ t.ctr = s.ctr ∧ linkRule lk s t ∧
      goesTo (bo v 0 = true ∨ srcBit s.cr bi = bo v 1) (4 * (s.ctr.toNat / 4 : Nat)) s t ∧
      branchFrame s t)

/-! ## Special-purpose registers and the time base -/

/-- The width of a special-purpose register (R33, R253). -/
def Sys2Proof.Statements.sprWidth (s : State) : Spr → Nat
  | .xer | .dsisr | .dec | .ear | .tbl | .tbu | .pvr | .fpecr | .pir => 32
  | .asr => 64
  | _ => xlen s

/-- `mtspr` of every writable register (R251, R253), at supervisor level or with a user-level
number, where the write is not one R258 excludes: the register takes the GPR or its low-order word,
no other special-purpose register changes, and the request latch is set exactly by a write of DEC
that changes its bit 0 from 0 to 1 (R353). Log 18. -/
def Obligations.MtsprStores : Prop :=
  ∀ (rs : RegNum) (n : BitVec 10) (r : Spr) (s : State), sprWritable s.cfg n = some r →
    (s.user = false ∨ n.getLsbD 4 = false) →
    (r = .sdr1 → s.msrBit msrIR = false ∧ s.msrBit msrDR = false) →
    (∀ i, r = .ibatL i → (s.getGpr rs).getLsbD 6 = false ∧ (s.getGpr rs).getLsbD 3 = false) →
    ∃ t, exec (.mtspr rs n) s = .next t ∧
      (t.sprValue r).toNat = (s.getGpr rs).toNat % 2 ^ sprWidth s r ∧
      (∀ q, q ≠ r → t.sprValue q = s.sprValue q) ∧
      (t.decRequest = true ↔ s.decRequest = true ∨
        (r = .dec ∧ srcBit s.dec 0 = false ∧ srcBit t.dec 0 = true)) ∧
      t.cfg = s.cfg ∧ t.gpr = s.gpr ∧ t.fpr = s.fpr ∧ t.cr = s.cr ∧ t.fpscr = s.fpscr ∧
      t.msr = s.msr ∧ t.sr = s.sr ∧ t.checkstop = s.checkstop ∧ sameMemory s t ∧ t.pc = s.nextPc

/-- `mfspr` of every readable register (R252, R253, R32): every bit that is not reserved reads as it
was last written; a reserved bit reads 0 where a 0 was last written; nothing else changes. Log 18.
-/
def Obligations.MfsprReads : Prop :=
  ∀ (rd : RegNum) (n : BitVec 10) (r : Spr) (s : State), sprReadable s.cfg n = some r →
    (s.user = false ∨ n.getLsbD 4 = false) →
    ∃ t, exec (.mfspr rd n) s = .next t ∧
      (∀ b, b < xlen s → (sprReserved s.cfg r).getLsbD b = false →
        (t.getGpr rd).getLsbD b = (s.sprValue r).getLsbD b) ∧
      (∀ b, (s.sprValue r).getLsbD b = false → (t.getGpr rd).getLsbD b = false) ∧
      gprsBut rd s t ∧ sameMemory s t ∧ t = { s with gpr := t.gpr, pc := s.nextPc }

/-- The special-purpose registers every implementation has, each with its number (R30). -/
def Sys2Proof.Statements.sprAlways : List (Nat × Spr) :=
  [(1, .xer), (8, .lr), (9, .ctr), (18, .dsisr), (19, .dar), (22, .dec), (25, .sdr1), (26, .srr0),
   (27, .srr1), (272, .sprg 0), (273, .sprg 1), (274, .sprg 2), (275, .sprg 3), (284, .tbl),
   (285, .tbu), (287, .pvr), (528, .ibatU 0), (529, .ibatL 0), (530, .ibatU 1), (531, .ibatL 1),
   (532, .ibatU 2), (533, .ibatL 2), (534, .ibatU 3), (535, .ibatL 3), (536, .dbatU 0),
   (537, .dbatL 0), (538, .dbatU 1), (539, .dbatL 1), (540, .dbatU 2), (541, .dbatL 2),
   (542, .dbatU 3), (543, .dbatL 3)]

/-- Those only some implementations have, with the number and the parameter (R30, R41). -/
def Sys2Proof.Statements.sprOptional (c : Config) : List (Bool × Nat × Spr) :=
  [(c.xlen64, 280, .asr), (c.hasEar, 282, .ear), (c.hasDabr, 1013, .dabr),
   (c.hasFpecr, 1022, .fpecr), (c.hasPir, 1023, .pir)]

/-- The number names the register on the implementation. -/
def Sys2Proof.Statements.sprNumber (c : Config) (n : BitVec 10) (r : Spr) : Prop :=
  (n.toNat, r) ∈ sprAlways ∨ (true, n.toNat, r) ∈ sprOptional c

/-- The numbers of the special-purpose registers (R30, R41), of which `mfspr` does not read TBL and
TBU nor `mtspr` write PVR (R257), and the privilege test (R255, R461): 1, 8 and 9 alone have n[4] = 0,
and at user level a number with n[4] = 1 raises the privileged instruction exception, defined or not,
with nothing read or written. Log 18. -/
def Obligations.SprPrivileged : Prop :=
  (∀ (c : Config) (n : BitVec 10) (r : Spr),
    (sprNamed c n = some r ↔ sprNumber c n r) ∧
    (sprReadable c n = some r ↔ sprNumber c n r ∧ n ≠ 284 ∧ n ≠ 285) ∧
    (sprWritable c n = some r ↔ sprNumber c n r ∧ n ≠ 287) ∧
    (sprNumber c n r → (n.getLsbD 4 = false ↔ n = 1 ∨ n = 8 ∨ n = 9))) ∧
  ∀ (r : RegNum) (n : BitVec 10) (s : State), s.user = true → n.getLsbD 4 = true →
    ∀ i ∈ [Instr.mtspr r n, .mfspr r n], ∃ t, exec i s = .next t ∧
      entered s t (.program .privileged) s.pc 0x00040000 ∧ sameMemory s t ∧
      t = { s with srr0 := t.srr0, srr1 := t.srr1, msr := t.msr, pc := t.pc, storedSinceSync := [],
                   lastExc := some (.program .privileged) }

/-- An undefined number does what UNDEF_SPR_POLICY says: for `mtspr` and `mfspr` past the privilege
test (R256), for `mftb` at any level (R346). Log 18. -/
def Obligations.SprUndefined : Prop :=
  ∀ (r : RegNum) (n : BitVec 10) (s : State),
    ∀ i, ((s.user = false ∨ n.getLsbD 4 = false) ∧
          (i = Instr.mtspr r n ∧ sprWritable s.cfg n = none ∨
            i = Instr.mfspr r n ∧ sprReadable s.cfg n = none) ∨
        i = Instr.mftb r n ∧ n ≠ 268 ∧ n ≠ 269) →
      (s.cfg.undefSpr = .refuse → exec i s = .refused .undefinedSpr) ∧
      (s.cfg.undefSpr = .illegal → ∃ t, exec i s = .next t ∧
        entered s t (.program .illegal) s.pc 0x00080000 ∧ t.gpr = s.gpr ∧ sameMemory s t) ∧
      (s.cfg.undefSpr = .privileged → ∃ t, exec i s = .next t ∧
        entered s t (.program .privileged) s.pc 0x00040000 ∧ t.gpr = s.gpr ∧ sameMemory s t)

/-- The forms the spec gives no meaning: a compare with L = 1 on a 32-bit implementation (R413),
`bcctr` with BO{2} = 0 (R326), `lswx` over an address register (R391), `mtspr` to SDR1 under
translation (R494) and of a 1 to W or G of a lower IBAT (R130, R258). Log 18. -/
def Obligations.InvalidForms : Prop :=
  (∀ (f : FieldNum) (ra rb : RegNum) (imm : BitVec 16) (s : State), s.cfg.xlen64 = false →
    exec (.cmp f true ra rb) s = .refused .invalidForm ∧
    exec (.cmpi f true ra imm) s = .refused .invalidForm ∧
    exec (.cmpl f true ra rb) s = .refused .invalidForm ∧
    exec (.cmpli f true ra imm) s = .refused .invalidForm) ∧
  (∀ (v bi : BitVec 5) (lk : Bool) (s : State), bo v 2 = false →
    exec (.bcctr v bi lk) s = .refused .invalidForm) ∧
  (∀ (rd ra rb : RegNum) (s : State),
    (rd = ra ∨ rd = rb ∨ ∃ k, k < (s.xer.toNat % 128 + 3) / 4 ∧
      (ra ≠ 0 ∧ rd + BitVec.ofNat 5 k = ra ∨ rd + BitVec.ofNat 5 k = rb)) →
    exec (.lswx rd ra rb) s = .refused .invalidForm) ∧
  ∀ (rs : RegNum) (n : BitVec 10) (s : State), s.user = false →
    (n = 25 → s.msrBit msrIR = true ∨ s.msrBit msrDR = true →
      exec (.mtspr rs n) s = .refused .sdr1WhileTranslating) ∧
    (n = 529 ∨ n = 531 ∨ n = 533 ∨ n = 535 →
      (s.getGpr rs).getLsbD 6 = true ∨ (s.getGpr rs).getLsbD 3 = true →
      exec (.mtspr rs n) s = .refused .ibatWG)

/-- `mftb` at any privilege level (R341): number 268 gives TBU and TBL on a 64-bit implementation
and TBL on a 32-bit one, 269 gives TBU; the time base stays. -/
def Obligations.MftbReads : Prop :=
  ∀ (rd : RegNum) (s : State),
    (∃ t, exec (.mftb rd 268) s = .next t ∧
      (t.getGpr rd).toNat =
        (if s.cfg.xlen64 then s.tbu.toNat * 2 ^ 32 + s.tbl.toNat else s.tbl.toNat) ∧
      gprsBut rd s t ∧ sameMemory s t ∧ t = { s with gpr := t.gpr, pc := s.nextPc }) ∧
    ∃ t, exec (.mftb rd 269) s = .next t ∧ (t.getGpr rd).toNat = s.tbu.toNat ∧
      gprsBut rd s t ∧ sameMemory s t ∧ t = { s with gpr := t.gpr, pc := s.nextPc }

/-! ## MSR, system call and return, segment registers -/

/-- New values of FE0 and FE1 that no enabled floating-point exception follows: FEX = 0, both 0, or
both as they were (R367). -/
def Sys2Proof.Statements.quietFe (s : State) (fe0 fe1 : Bool) : Prop :=
  fpscrFEX s.fpscr = true →
    (fe0 = false ∧ fe1 = false) ∨ (fe0 = s.msrBit msrFE0 ∧ fe1 = s.msrBit msrFE1)

/-- `mtmsr` where it exists (R361) and `mtmsrd` (R362) at supervisor level, where a change of FE0 or
FE1 turns no mode on under FEX: MSR takes the register or its low-order word, the high-order one
staying; pc goes to the next instruction, whose address is masked as the new mode asks (R166, R367,
log 32); nothing else changes. A 1 written to POW on an implementation that has it stops by name
(R467, log 17). `mfmsr` (R363, R32) reads every defined bit as it is and a reserved bit as 0 where a
0 was last written. Log 18. -/
def Obligations.MsrMoves : Prop :=
  (∀ (rs : RegNum) (s : State), s.user = false →
    ∀ i m, (i = Instr.mtmsr rs ∧ (s.cfg.xlen64 = false ∨ s.cfg.hasBridge = true) ∧
          lo32 m = s.gprWord rs ∧ hi32 m = (if s.cfg.xlen64 then hi32 s.msr else 0) ∨
        i = Instr.mtmsrd rs ∧ s.cfg.xlen64 = true ∧ m = s.getGpr rs) →
      (s.cfg.hasPow = true → m.getLsbD 18 = true → exec i s = .refused .powerManagement) ∧
      ((s.cfg.hasPow = true → m.getLsbD 18 = false) →
        quietFe s (m.getLsbD 11) (m.getLsbD 8) →
        ∃ t, exec i s = .next t ∧ t.msr = m ∧
          t.pc.toNat = (s.pc.toNat + 4) % 2 ^ modeWidth s % 2 ^ modeWidth t ∧ sameMemory s t ∧
          t = { s with msr := m, pc := t.pc })) ∧
  ∀ (rd : RegNum) (s : State), s.user = false → ∃ t, exec (.mfmsr rd) s = .next t ∧
    (∀ b, b < xlen s → (msrDefined s.cfg).getLsbD b = true →
      (t.getGpr rd).getLsbD b = s.msr.getLsbD b) ∧
    (∀ b, s.msr.getLsbD b = false → (t.getGpr rd).getLsbD b = false) ∧
    gprsBut rd s t ∧ sameMemory s t ∧ t = { s with gpr := t.gpr, pc := s.nextPc }

/-- The segment-register moves where they exist (R370 to R373): the register a number or bits 31 to
28 of rB select is written with rS's low-order word, or read, unchanged on the bridge (R374, D26), on
a 32-bit implementation with its reserved bits (those of a T = 0 register) as R32 says. Log 18. -/
def Obligations.SegmentMoves : Prop :=
  ∀ (r rb : RegNum) (n : BitVec 4) (s : State), s.user = false →
    (s.cfg.xlen64 = false ∨ s.cfg.hasBridge = true) →
    (∀ i k, (i = Instr.mtsr r n ∧ k = n ∨ i = Instr.mtsrin r rb ∧
        k.toNat = (s.gprWord rb).toNat / 2 ^ 28) →
      ∃ t, exec i s = .next t ∧ t.getSr k = s.gprWord r ∧ (∀ q, q ≠ k → t.getSr q = s.getSr q) ∧
        sameMemory s t ∧ t = { s with sr := t.sr, pc := s.nextPc }) ∧
    (∀ i k, (i = Instr.mfsr r n ∧ k = n ∨ i = Instr.mfsrin r rb ∧
        k.toNat = (s.gprWord rb).toNat / 2 ^ 28) →
      ∃ t, exec i s = .next t ∧
        (∀ b, (s.cfg.xlen64 = true ∨ (s.getSr k).getLsbD 31 = true ∨ b < 24 ∨ 27 < b ∨ (s.getSr k).getLsbD b = false) →
          (t.getGpr r).getLsbD b = (s.getSr k).getLsbD b) ∧
        gprsBut r s t ∧ sameMemory s t ∧ t = { s with gpr := t.gpr, pc := s.nextPc })

/-- `sc` (R364, R443): the system call exception with SRR0 at the next instruction, at any level;
every other register and all memory stay. Log 18. -/
def Obligations.SystemCallEntry : Prop :=
  ∀ s : State, ∃ t, exec .sc s = .next t ∧ entered s t .systemCall (s.pc + 4) 0 ∧ sameMemory s t ∧
    t = { s with srr0 := t.srr0, srr1 := t.srr1, msr := t.msr, pc := t.pc, storedSinceSync := [],
                 lastExc := some .systemCall }

/-- A return (R365, R366, R368): of the restored bits MSR takes SRR1's, of the others its own; pc is
SRR0 with its low bits 0 and, in the restored 32-bit mode, its high half 0; SRR0 and SRR1 stay.
`high` says whether the high-order word is restored. -/
def Sys2Proof.Statements.returned (high : Bool) (s t : State) : Prop :=
  (∀ b, b < xlen s → t.msr.getLsbD b =
    if infoMask.getLsbD b = true ∨ (32 ≤ b ∧ high = false) then s.msr.getLsbD b
    else s.srr1.getLsbD b) ∧
  t.pc.toNat = 4 * (s.srr0.toNat / 4) % 2 ^ modeWidth t ∧ sameMemory s t ∧
  t = { s with msr := t.msr, pc := t.pc, storedSinceSync := [] }

/-- `rfi` where it exists and `rfid` at supervisor level, where the restored FE0 and FE1 turn no mode
on under FEX (R154, R365, R366, R368). Log 18. -/
def Obligations.ReturnRestores : Prop :=
  ∀ s : State, s.user = false → quietFe s (s.srr1.getLsbD 11) (s.srr1.getLsbD 8) →
    ((s.cfg.xlen64 = false ∨ s.cfg.hasBridge = true) →
      ∃ t, exec .rfi s = .next t ∧ returned false s t) ∧
    (s.cfg.xlen64 = true → ∃ t, exec .rfid s = .next t ∧ returned true s t)

/-- A system call followed at once by the return comes back to the instruction after it, in a state
that differs from the old one in SRR0, SRR1, pc and the model's own two records only (R364 to R368,
R445, R449): the round trip of exception entry and return, `rfi` on a 32-bit implementation and `rfid`
on a 64-bit one. The premises say that MSR holds no reserved 1 and that, with FEX = 1, no
floating-point exception mode is on. Log 18. -/
def Obligations.CallReturnRoundTrip : Prop :=
  ∀ s t u : State, s.widthsOk = true → s.pcAligned = true →
    (∀ b, (msrDefined s.cfg).getLsbD b = false → s.msr.getLsbD b = false) →
    s.msrBit msrPOW = false →
    (fpscrFEX s.fpscr = true → s.msrBit msrFE0 = false ∧ s.msrBit msrFE1 = false) →
    exec .sc s = .next t →
    exec (if s.cfg.xlen64 then .rfid else .rfi) t = .next u →
    u.msr = s.msr ∧ u.pc = s.nextPc ∧
      u = { s with srr0 := t.srr0, srr1 := t.srr1, pc := s.nextPc, storedSinceSync := [],
                   lastExc := some .systemCall }

/-- The supervisor-level instructions that are not moves of special-purpose registers, each with
the condition under which it exists (R221, R461). -/
def Sys2Proof.Statements.supervisorInstrs (c : Config) (r q : RegNum) (n : BitVec 4) :
    List (Instr × Bool) :=
  [(.mtmsr r, !c.xlen64 || c.hasBridge), (.mtmsrd r, c.xlen64), (.mfmsr r, true),
   (.rfi, !c.xlen64 || c.hasBridge), (.rfid, c.xlen64), (.mtsr r n, !c.xlen64 || c.hasBridge),
   (.mtsrin r q, !c.xlen64 || c.hasBridge), (.mfsr r n, !c.xlen64 || c.hasBridge),
   (.mfsrin r q, !c.xlen64 || c.hasBridge), (.slbie r, c.xlen64), (.slbia, c.xlen64),
   (.tlbie r, true), (.tlbia, c.hasTlbia)]

/-- At user level each of them raises the privileged instruction exception where it exists, and the
illegal instruction exception, at any level, where it does not (R221, R435, R461). The other
instructions an implementation may lack are illegal where it does: the doubleword arithmetic on 32
bits, external control without EAR. No register but those of the entry, and no memory, changes.
Log 18. -/
def Obligations.SupervisorOnly : Prop :=
  (∀ (r q : RegNum) (n : BitVec 4) (s : State), ∀ p ∈ supervisorInstrs s.cfg r q n,
    (p.2 = true → s.user = true → ∃ t, exec p.1 s = .next t ∧
      entered s t (.program .privileged) s.pc 0x00040000 ∧ sameMemory s t ∧
      t = { s with srr0 := t.srr0, srr1 := t.srr1, msr := t.msr, pc := t.pc, storedSinceSync := [],
                   lastExc := some (.program .privileged) }) ∧
    (p.2 = false → ∃ t, exec p.1 s = .next t ∧
      entered s t (.program .illegal) s.pc 0x00080000 ∧ sameMemory s t ∧
      t = { s with srr0 := t.srr0, srr1 := t.srr1, msr := t.msr, pc := t.pc, storedSinceSync := [],
                   lastExc := some (.program .illegal) })) ∧
  ∀ (rd ra rb : RegNum) (oe rc : Bool) (s : State),
    ∀ i, (s.cfg.xlen64 = false ∧
          i ∈ [Instr.mulld rd ra rb oe rc, .divd rd ra rb oe rc, .divdu rd ra rb oe rc] ∨
        s.cfg.hasEar = false ∧ i ∈ [Instr.eciwx rd ra rb, .ecowx rd ra rb]) →
      ∃ t, exec i s = .next t ∧ entered s t (.program .illegal) s.pc 0x00080000 ∧
        sameMemory s t ∧
        t = { s with srr0 := t.srr0, srr1 := t.srr1, msr := t.msr, pc := t.pc,
                     storedSinceSync := [], lastExc := some (.program .illegal) }

/-- `sync` at any level and the four lookaside invalidations at supervisor level, where they exist,
change nothing but pc (R400 to R404, R165). That `slbie` and `slbia` leave the bridge's sixteen segment
register images, which R374 calls SLB entries, is the model's choice (log 30). Log 18. -/
def Obligations.SynchronizeOnly : Prop :=
  ∀ (rb : RegNum) (s : State),
    exec .sync s = .next { s with pc := s.nextPc } ∧
    (s.user = false →
      exec (.tlbie rb) s = .next { s with pc := s.nextPc } ∧
      (s.cfg.hasTlbia = true → exec .tlbia s = .next { s with pc := s.nextPc }) ∧
      (s.cfg.xlen64 = true → exec (.slbie rb) s = .next { s with pc := s.nextPc } ∧
        exec .slbia s = .next { s with pc := s.nextPc }))

/-! ## Storage and external control -/

/-- No byte of an access of `n` bytes at `ea` meets the data address breakpoint (R196). -/
def Sys2Proof.Statements.noBreakpoint (s : State) (store : Bool) (ea : DWord) (n : Nat) : Prop :=
  s.cfg.hasDabr = true → dabrBT s.dabr = s.msrBit msrDR →
    (if store then dabrDW s.dabr else dabrDR s.dabr) = true →
    ∀ j, j < n → (s.ea (ea + BitVec.ofNat 64 j)) >>> 3 ≠ s.dabr >>> 3

/-- Byte `j` of an access of `n` bytes at `ea` translates to `pa j`, for each of them; the hardware
marks `marks j` with it (R180, R193). With translation off `pa j` is its effective address and nothing
is marked (`BatTranslates`). -/
def Sys2Proof.Statements.translates (s : State) (store : Bool) (ea : DWord) (n : Nat)
    (pa : Nat → DWord) (marks : Nat → List Host.Cell) : Prop :=
  ∀ j, j < n → s.dataWalk store (s.ea (ea + BitVec.ofNat 64 j)) = .phys (pa j) (marks j)

/-- The first `n` physical addresses are in the platform's memory (R177). -/
def Sys2Proof.Statements.allPresent (s : State) (n : Nat) (pa : Nat → DWord) : Prop :=
  ∀ j, j < n → present s.cfg (pa j) = true

/-- Memory with all the hardware marks for `n` bytes (R193, log 46). -/
def Sys2Proof.Statements.markedMem (s : State) (n : Nat) (marks : Nat → List Host.Cell) :
    List Host.Cell :=
  (s.markPages ((List.range n).flatMap marks)).mem

/-- Address `a` is none of the `n` bytes' marks. -/
def Sys2Proof.Statements.unmarked (n : Nat) (marks : Nat → List Host.Cell) (a : Nat) : Prop :=
  ∀ j, j < n → ∀ c ∈ marks j, c.1 ≠ a

/-- Memory is as the marks of `n` bytes leave it: every other byte is as before. -/
def Sys2Proof.Statements.marksOnly (s t : State) (n : Nat) (marks : Nat → List Host.Cell) : Prop :=
  t.mem = markedMem s n marks ∧ ∀ a, unmarked n marks a → Memory.read t.mem a = Memory.read s.mem a

/-- SRR0 and SRR1 stay, but under translation where the implementation modifies them (R152). -/
def Sys2Proof.Statements.srrKept (s t : State) : Prop :=
  s.msrBit msrDR = false ∨ s.cfg.srrClobber = false → t.srr0 = s.srr0 ∧ t.srr1 = s.srr1

/-- The word four bytes of memory make, big-endian (R172). -/
def Sys2Proof.Statements.wordAt (m : List Host.Cell) (pa : Nat → DWord) : Nat :=
  (Memory.read m (pa 0).toNat).toNat * 2 ^ 24 + (Memory.read m (pa 1).toNat).toNat * 2 ^ 16 +
    (Memory.read m (pa 2).toNat).toNat * 2 ^ 8 + (Memory.read m (pa 3).toNat).toNat

/-- `lwz` at a multiple of 4, or where the implementation performs misaligned accesses (R174, log 10),
big-endian, whose bytes translate to memory the platform has, with no breakpoint match (R417, R172,
R180): rD is the word at the physical addresses, zero-extended. The page table's marks (R193), which
come first (log 46), are the only change of memory. Log 18. -/
def Obligations.LwzLoads : Prop :=
  ∀ (rd ra : RegNum) (d : BitVec 16) (ea : DWord) (pa : Nat → DWord) (marks : Nat → List Host.Cell)
    (s : State),
    ea = s.ea ((if ra = 0 then 0 else s.getGpr ra) + d.signExtend 64) →
    (ea.toNat % 4 = 0 ∨ s.cfg.alignment = .perform) →
    s.msrBit msrLE = false → noBreakpoint s false ea 4 → translates s false ea 4 pa marks →
    allPresent s 4 pa →
    ∃ t, exec (.lwz rd ra d) s = .next t ∧ (t.getGpr rd).toNat = wordAt t.mem pa ∧
      gprsBut rd s t ∧ marksOnly s t 4 marks ∧ srrKept s t ∧
      t = { s with gpr := t.gpr, mem := t.mem, srr0 := t.srr0, srr1 := t.srr1, pc := s.nextPc }

/-- `lswx` of n > 0 bytes, big-endian, that translate to memory the platform has (R180), with no
breakpoint match and no address register loaded (R391): byte k, read at its physical address, goes
to byte k mod 4 of the low-order word of register rD + k/4, counted from the most significant and
modulo 32; the rest of the last register and the high halves are 0; registers past the string,
memory but for the page table's marks (R193, log 46) and everything else stay. With n = 0 only rD,
whose value is open (log 40), and pc change. Log 18. -/
def Obligations.LswxLoads : Prop :=
  ∀ (rd ra rb : RegNum) (ea : DWord) (n : Nat) (pa : Nat → DWord) (marks : Nat → List Host.Cell)
    (s : State), n = s.xer.toNat % 128 →
    ea = s.ea ((if ra = 0 then 0 else s.getGpr ra) + s.getGpr rb) → rd ≠ ra → rd ≠ rb →
    (∀ k, k < (n + 3) / 4 → (ra ≠ 0 → rd + BitVec.ofNat 5 k ≠ ra) ∧ rd + BitVec.ofNat 5 k ≠ rb) →
    (n = 0 → ∃ t, exec (.lswx rd ra rb) s = .next t ∧ gprsBut rd s t ∧ sameMemory s t ∧
      t = { s with gpr := t.gpr, pc := s.nextPc }) ∧
    (n ≠ 0 → s.msrBit msrLE = false → noBreakpoint s false ea n → translates s false ea n pa marks →
      allPresent s n pa →
      ∃ t, exec (.lswx rd ra rb) s = .next t ∧
        (∀ k, k < 4 * ((n + 3) / 4) →
          wordByte (t.gprWord (rd + BitVec.ofNat 5 (k / 4))) (k % 4) =
            if k < n then Memory.read t.mem (pa k).toNat else 0) ∧
        (∀ k, k < (n + 3) / 4 → hi32 (t.getGpr (rd + BitVec.ofNat 5 k)) = 0) ∧
        (∀ q, (∀ k, k < (n + 3) / 4 → q ≠ rd + BitVec.ofNat 5 k) → t.getGpr q = s.getGpr q) ∧
        marksOnly s t n marks ∧ srrKept s t ∧
        t = { s with gpr := t.gpr, mem := t.mem, srr0 := t.srr0, srr1 := t.srr1, pc := s.nextPc })

/-- `stswx` of n bytes, big-endian, that translate to memory the platform has (R180), with no
breakpoint match (R392): byte k of the string is stored at the physical address of the k-th byte from
(rA|0) + rB on; every other byte of memory, but for the page table's marks (R193), which come first
(log 46), and every register, stays. With n = 0 nothing is stored. Log 18. -/
def Obligations.StswxStores : Prop :=
  ∀ (rs ra rb : RegNum) (ea : DWord) (n : Nat) (pa : Nat → DWord) (marks : Nat → List Host.Cell)
    (s : State), n = s.xer.toNat % 128 →
    ea = s.ea ((if ra = 0 then 0 else s.getGpr ra) + s.getGpr rb) → s.memOk = true →
    s.msrBit msrLE = false → noBreakpoint s true ea n → translates s true ea n pa marks →
    allPresent s n pa →
    ∃ t, exec (.stswx rs ra rb) s = .next t ∧
      (∀ k, k < n → Memory.read t.mem (pa k).toNat =
        wordByte (s.gprWord (rs + BitVec.ofNat 5 (k / 4))) (k % 4)) ∧
      (∀ a, (∀ k, k < n → a ≠ (pa k).toNat) →
        Memory.read t.mem a = Memory.read (markedMem s n marks) a ∧
          (unmarked n marks a → Memory.read t.mem a = Memory.read s.mem a)) ∧
      srrKept s t ∧
      t = { s with mem := t.mem, storedSinceSync := t.storedSinceSync, srr0 := t.srr0,
                   srr1 := t.srr1, pc := s.nextPc }

/-- `eciwx` and `ecowx` at a multiple of 4 with EAR[E] = 1, big-endian, whose bytes translate, with
no breakpoint match (R396, R397): the device receives the resource ID, the translated physical
address and, from `ecowx`, rS's low-order word; `eciwx` puts the device's answer, zero-extended,
into rD; memory is neither read nor written but for the page table's marks (R193). That the answers
wait in a queue and that what was sent is listed is the model's choice (log 13). Log 18. -/
def Obligations.ExternalControl : Prop :=
  ∀ (r ra rb : RegNum) (ea : DWord) (pa : Nat → DWord) (marks : Nat → List Host.Cell) (s : State),
    ea = s.ea ((if ra = 0 then 0 else s.getGpr ra) + s.getGpr rb) → ea.toNat % 4 = 0 →
    s.cfg.hasEar = true → srcBit s.ear 0 = true → s.msrBit msrLE = false →
    (noBreakpoint s false ea 4 → translates s false ea 4 pa marks → ∃ t, exec (.eciwx r ra rb) s = .next t ∧
      (∀ v rest, s.extReplies = v :: rest →
        (t.getGpr r).toNat = v.toNat ∧ t.extReplies = rest) ∧
      t.extSent = s.extSent ++ [⟨earRID s.cfg s.ear, pa 0, none⟩] ∧ gprsBut r s t ∧
      marksOnly s t 4 marks ∧ srrKept s t ∧
      t = { s with gpr := t.gpr, mem := t.mem, srr0 := t.srr0, srr1 := t.srr1,
                   extReplies := t.extReplies, extSent := t.extSent, pc := s.nextPc }) ∧
    (noBreakpoint s true ea 4 → translates s true ea 4 pa marks →
      ∃ t, exec (.ecowx r ra rb) s = .next t ∧
      t.extSent = s.extSent ++ [⟨earRID s.cfg s.ear, pa 0, some (s.gprWord r)⟩] ∧
      marksOnly s t 4 marks ∧ srrKept s t ∧
      t = { s with mem := t.mem, srr0 := t.srr0, srr1 := t.srr1, extSent := t.extSent,
                   pc := s.nextPc })

/-- A DSI (R433, R447): entry at the instruction, DAR the effective address, DSISR the cause, no
other effect. -/
def Sys2Proof.Statements.dsiTaken (s t : State) (ea : DWord) (cause : Word) : Prop :=
  entered s t .dsi s.pc 0 ∧ t.dar = ea ∧ t.dsisr = cause ∧ sameMemory s t ∧
    t = { s with srr0 := t.srr0, srr1 := t.srr1, msr := t.msr, dar := t.dar, dsisr := t.dsisr,
                 pc := t.pc, storedSinceSync := [], lastExc := some .dsi }

/-- The instruction accesses `n` bytes of data at `ea`, for a store or a load, once its own tests are
passed: the alignment of a word access, EAR[E], the form of `lswx` (R174, R391, R396, R397). -/
def Sys2Proof.Statements.accesses (i : Instr) (store : Bool) (ea : DWord) (n : Nat) (s : State) :
    Prop :=
  ∃ (r ra rb : RegNum) (d : BitVec 16),
    (i = .lwz r ra d ∧ store = false ∧ n = 4 ∧
      ea = s.ea ((if ra = 0 then 0 else s.getGpr ra) + d.signExtend 64) ∧
      (ea.toNat % 4 = 0 ∨ s.cfg.alignment = .perform)) ∨
    (ea = s.ea ((if ra = 0 then 0 else s.getGpr ra) + s.getGpr rb) ∧
      ((i = .lswx r ra rb ∧ store = false ∧ n = s.xer.toNat % 128 ∧ r ≠ ra ∧ r ≠ rb ∧
          ∀ k, k < (n + 3) / 4 →
            (ra ≠ 0 → r + BitVec.ofNat 5 k ≠ ra) ∧ r + BitVec.ofNat 5 k ≠ rb) ∨
        (i = .stswx r ra rb ∧ store = true ∧ n = s.xer.toNat % 128) ∨
        (i = .eciwx r ra rb ∧ store = false ∨ i = .ecowx r ra rb ∧ store = true) ∧ n = 4 ∧
          s.cfg.hasEar = true ∧ srcBit s.ear 0 = true ∧ ea.toNat % 4 = 0))

/-- The external control accesses. -/
def Sys2Proof.Statements.isExternal : Instr → Bool
  | .eciwx _ _ _ => true
  | .ecowx _ _ _ => true
  | _ => false

/-- The storage exceptions, each with no other effect (D20). A DSI (R433, R447): `eciwx` and `ecowx`
with EAR[E] = 0 (R396, R397); for each of the five instructions that access data a breakpoint match
of any byte (R196), with DAR the computed address, and else the first byte whose translation fails,
with DAR that byte's address and DSISR the reason. In a direct-store segment `eciwx` and `ecowx`
fail so, and the three others stop (R189, log 48). An ISI (R448, R456): a fetch whose translation
fails, with the reason in SRR1. The failures are those of `BatTranslates`. Log 18. -/
def Obligations.DsiCauses : Prop :=
  (∀ (r ra rb : RegNum) (ea : DWord) (s : State),
    ea = s.ea ((if ra = 0 then 0 else s.getGpr ra) + s.getGpr rb) →
    s.cfg.hasEar = true → srcBit s.ear 0 = false →
    (∃ t, exec (.eciwx r ra rb) s = .next t ∧ dsiTaken s t ea 0x00100000) ∧
    ∃ t, exec (.ecowx r ra rb) s = .next t ∧ dsiTaken s t ea 0x02100000) ∧
  (∀ (i : Instr) (store : Bool) (ea : DWord) (n j : Nat) (s : State), accesses i store ea n s →
    s.msrBit msrLE = false → j < n → ∀ b, b = s.ea (ea + BitVec.ofNat 64 j) →
    (s.cfg.hasDabr = true → dabrBT s.dabr = s.msrBit msrDR →
      (if store then dabrDW s.dabr else dabrDR s.dabr) = true → b >>> 3 = s.dabr >>> 3 →
      ∃ t, exec i s = .next t ∧ dsiTaken s t ea (if store then 0x02400000 else 0x00400000)) ∧
    (noBreakpoint s store ea n →
      (∀ k, k < j → ∃ pa marks, s.dataWalk store (s.ea (ea + BitVec.ofNat 64 k)) = .phys pa marks) →
      ∀ p ∈ [(PageFault.noPage, (0x40000000 : Word)), (.protection, 0x08000000),
          (.noSegment, 0x00200000)],
        s.dataWalk store b = .fault p.1 →
        ∃ t, exec i s = .next t ∧
          dsiTaken s t b (p.2 ||| if store then 0x02000000 else 0)) ∧
    (noBreakpoint s store ea n →
      (∀ k, k < j → ∃ pa marks, s.dataWalk store (s.ea (ea + BitVec.ofNat 64 k)) = .phys pa marks) →
      s.dataWalk store b = .fault .directStore →
      (isExternal i = true → ∃ t, exec i s = .next t ∧
        dsiTaken s t b (0x04000000 ||| if store then 0x02000000 else 0)) ∧
      (isExternal i = false → exec i s = .refused .directStore))) ∧
  ∀ (s t : State), quietBoundary s t →
    ∀ p ∈ [(PageFault.noPage, (0x40000000 : DWord)), (.noExecute, 0x10000000),
        (.protection, 0x08000000), (.noSegment, 0x00200000), (.directStore, 0x10000000)],
      t.fetchWalk (t.ea t.pc) = .fault p.1 →
      ∃ u, step s = .next u ∧ entered t u .isi t.pc p.2 ∧ sameMemory t u ∧
        u = { t with srr0 := u.srr0, srr1 := u.srr1, msr := u.msr, pc := u.pc, storedSinceSync := [],
                     lastExc := some .isi }

/-- A word access at no multiple of 4 does what the alignment policy says (log 10, R174, R434): it
is refused, D16's default; or it takes the alignment exception with DAR the effective address, `lwz`
where the implementation traps, `eciwx` and `ecowx` wherever it does not refuse (log 39). Where the
implementation performs it, `lwz` runs (`LwzLoads`); the string instructions need no alignment. The
exception changes nothing else but DSISR, whose value is open (log 26). Log 18. -/
def Obligations.MisalignedTraps : Prop :=
  ∀ (rd ra rb : RegNum) (d : BitVec 16) (s : State),
    ∀ i ea, (i = Instr.lwz rd ra d ∧
          ea = s.ea ((if ra = 0 then 0 else s.getGpr ra) + d.signExtend 64) ∨
        (i = Instr.eciwx rd ra rb ∨ i = Instr.ecowx rd ra rb) ∧ s.cfg.hasEar = true ∧
          srcBit s.ear 0 = true ∧ ea = s.ea ((if ra = 0 then 0 else s.getGpr ra) + s.getGpr rb)) →
      ea.toNat % 4 ≠ 0 →
      (s.cfg.alignment = .refuse → exec i s = .refused .misaligned) ∧
      (s.cfg.alignment = .trap ∨ s.cfg.alignment = .perform ∧ i ≠ .lwz rd ra d →
        ∃ t, exec i s = .next t ∧ entered s t .alignment s.pc 0 ∧ t.dar = ea ∧ sameMemory s t ∧
          t = { s with srr0 := t.srr0, srr1 := t.srr1, msr := t.msr, dar := t.dar, dsisr := t.dsisr,
                       pc := t.pc, storedSinceSync := [], lastExc := some .alignment })

/-- The pair is valid for the privilege level (R185). -/
def Sys2Proof.Statements.pairValid (s : State) (u : DWord) : Bool :=
  if s.user then batVp u else batVs u

/-- The pair keeps the rules of R131. -/
def Sys2Proof.Statements.pairSound (u l : DWord) : Prop :=
  batBLValid (batBL u) = true ∧ batBEPI u &&& batBL u = 0 ∧ batBRPN l &&& batBL u = 0

/-- The pair is valid for the privilege level and its area holds the address (R183, R185). -/
def Sys2Proof.Statements.pairHits (s : State) (u ea : DWord) : Prop :=
  pairValid s u = true ∧
    ea.toNat / batLength (batBL u) = (batBEPI u).toNat * 2 ^ 17 / batLength (batBL u)

/-- A physical address in the page of the valid segment table or in the page table (R190, R191). -/
def Sys2Proof.Statements.inTables (s : State) (page : PageName) (r : DWord) : Prop :=
  (∃ table p, page = .effective (some table) p ∧ ∃ o : BitVec 12, r.toNat = table.toNat + o.toNat) ∨
    ∃ n, r = BitVec.ofNat 64 n ∧ (sdr1TableBase s.cfg s.sdr1).toNat ≤ n ∧
      n < (sdr1TableBase s.cfg s.sdr1).toNat + sdr1TableBytes s.cfg s.sdr1

/-- `w` is what the page-table search, a parameter of the model (R181, log 11), gives for a page. It
refers to the tables only, and where the platform lacks an address it refers to, it ends there
(R177). Else: a physical address with the byte offset kept, and bytes to mark in the page table only
(R193, log 46); a fault; or a stop where SDR1 is malformed (R136, R137). -/
def Sys2Proof.Statements.searched (s : State) (kind : AccessKind) (page : PageName) (ea : DWord)
    (w : Walk) : Prop :=
  (sdr1WellFormed s.cfg s.sdr1 = false → w = .refused .sdr1Malformed) ∧
    (sdr1WellFormed s.cfg s.sdr1 = true →
      ∀ a, a = Config.freePageSearch ⟨kind, s.user, page, s.sdr1, s.mem, s.draws⟩ →
        (∀ r ∈ s.searchRefs page a, inTables s page r) ∧
        ((∃ r ∈ s.searchRefs page a, present s.cfg r = false) → w = .absent) ∧
        ((∀ r ∈ s.searchRefs page a, present s.cfg r = true) →
          (∀ frame marks, a.result = .found frame marks → ∃ pa ms, w = .phys pa ms ∧
            pa.toNat = (frame.toNat * 2 ^ 12 + ea.toNat % 2 ^ 12) % 2 ^ xlen s ∧
            ∀ c ∈ ms, c ∈ marks ∧ (sdr1TableBase s.cfg s.sdr1).toNat ≤ c.1 ∧
              c.1 < (sdr1TableBase s.cfg s.sdr1).toNat + sdr1TableBytes s.cfg s.sdr1) ∧
          (a.result = .fault .noPage → w = .fault .noPage) ∧
          (a.result = .fault .protection → w = .fault .protection) ∧
          (a.result = .fault .noExecute → kind = .fetch → w = .fault .noExecute) ∧
          ∀ table p, page = .effective table p →
            (a.result = .fault .noSegment → w = .fault .noSegment) ∧
            (a.result = .fault .directStore → w = .fault .directStore)))

/-- Address translation (R180 to R191). Off, the physical address is the effective one; on, a data
access goes through the DBATs and a fetch through the IBATs. Where every valid pair of the array keeps
the rules of R131 and exactly one, any of them, holds the address, the physical address is the block's
base plus the offset in the area (on 32 bits, for a register and an address that fit); a store needs
PP = 10, a load or fetch a PP other than 00. Two such pairs, or a valid one that breaks R131, stop by
name (R182). Where none holds it the segment registers decide on a 32-bit implementation and on the
bridge with ASR[V] = MSR[SF] = 0 (R191): the one that EA bits 31 to 28 select (R187) names a
direct-store segment, which has no page (R189), forbids a fetch with N = 1 (R456), or forms the 52-bit
virtual address (R188) of the page-table search; elsewhere the search starts in the segment table, not
in the first three pages (log 11), or, on the bridge with ASR[V] = 0 and MSR[SF] = 1, has none (R140,
log 49). Log 18. -/
def Obligations.BatTranslates : Prop :=
  (∀ (s : State) (store : Bool) (ea : DWord),
    s.dataWalk store ea = (if s.msrBit msrDR = true then
      s.walk s.dbatU s.dbatL (if store = true then .store else .load) ea else .phys ea []) ∧
    s.fetchWalk ea = (if s.msrBit msrIR = true then s.walk s.ibatU s.ibatL .fetch ea
      else .phys ea [])) ∧
  (∀ (us ls : Vector DWord 4) (kind : AccessKind) (ea : DWord) (s : State),
    ((∃ i : Fin 4, pairValid s us[i] = true ∧ ¬pairSound us[i] ls[i]) →
      s.walk us ls kind ea = .refused .batMalformed) ∧
    ((∀ i : Fin 4, pairValid s us[i] = true → pairSound us[i] ls[i]) →
      (∀ k : Fin 4, pairHits s us[k] ea → (∀ i : Fin 4, i ≠ k → ¬pairHits s us[i] ea) →
        (batPP ls[k] = 0b10 ∨ batPP ls[k] ≠ 0 ∧ kind ≠ .store →
          narrow s.cfg ls[k] = true → narrow s.cfg ea = true →
          ∃ pa, s.walk us ls kind ea = .phys pa [] ∧
            pa.toNat = (batBRPN ls[k]).toNat * 2 ^ 17 + ea.toNat % batLength (batBL us[k])) ∧
        (batPP ls[k] = 0 ∨ batPP ls[k] ≠ 0b10 ∧ kind = .store →
          s.walk us ls kind ea = .fault .protection)) ∧
      (∀ i j : Fin 4, i ≠ j → pairHits s us[i] ea → pairHits s us[j] ea →
        s.walk us ls kind ea = .refused .batConflict) ∧
      ((∀ i : Fin 4, ¬pairHits s us[i] ea) → s.walk us ls kind ea = s.segmentWalk kind ea))) ∧
  ∀ (kind : AccessKind) (ea : DWord) (s : State),
    (s.cfg.xlen64 = false ∨
        s.cfg.hasBridge = true ∧ s.asr.getLsbD 0 = false ∧ s.msrBit msrSF = false →
      ∀ w, w = s.getSr (ea.extractLsb' 28 4) →
        (w.getLsbD 31 = true → s.segmentWalk kind ea = .fault .directStore) ∧
        (w.getLsbD 31 = false → w.getLsbD 28 = true ∧ kind = .fetch →
          s.segmentWalk kind ea = .fault .noExecute) ∧
        (w.getLsbD 31 = false → w.getLsbD 28 = false ∨ kind ≠ .fetch → ∃ page,
          page.toNat = w.toNat % 2 ^ 24 * 2 ^ 16 + ea.toNat % 2 ^ 28 / 2 ^ 12 ∧
          searched s kind (.virtual (w.getLsbD 30) (w.getLsbD 29) page) ea
            (s.segmentWalk kind ea))) ∧
    (s.cfg.xlen64 = true → s.cfg.hasBridge = true → s.asr.getLsbD 0 = false →
      s.msrBit msrSF = true → ∃ page, page.toNat = ea.toNat / 2 ^ 12 ∧
        searched s kind (.effective none page) ea (s.segmentWalk kind ea)) ∧
    (s.cfg.xlen64 = true → s.cfg.hasBridge = false ∨ s.asr.getLsbD 0 = true →
      (s.asr.toNat / 2 ^ 12 ≤ 2 → s.segmentWalk kind ea = .refused .segmentTableReserved) ∧
      (2 < s.asr.toNat / 2 ^ 12 → ∃ table page, table.toNat = s.asr.toNat / 2 ^ 12 * 2 ^ 12 ∧
        page.toNat = ea.toNat / 2 ^ 12 ∧
        searched s kind (.effective (some table) page) ea (s.segmentWalk kind ea)))

/-! ## Memory -/

/-- A read after a write, in a canonical memory: the byte written at its address, the old byte
everywhere else; and canonical memories, the model's own form of it (log 5), that read alike are equal
(R170). Log 18. -/
def Obligations.MemoryLaws : Prop :=
  (∀ (m : List Host.Cell) (a b : Nat) (v : Byte), Memory.wf m = true →
      Memory.read (Memory.write m a v) b = if b = a then v else Memory.read m b) ∧
    ∀ m n : List Host.Cell, Memory.wf m = true → Memory.wf n = true →
      (∀ a, Memory.read m a = Memory.read n a) → m = n

/-! ## Exceptions and the boundary -/

/-- The entry procedure (R445, R446, R448, R449) but for DAR and DSISR, which a DSI and an alignment
exception write besides (`DsiCauses`, `MisalignedTraps`): SRR0, SRR1, MSR and pc as `entered` says
(R166, log 21), SF and ISF from ISF with the bridge and SF = 1 without it, the request latch cleared
by a decrementer exception only, and nothing else of the processor or memory changed. It is context
synchronizing, so that the model forgets which bytes were stored to (log 14), but for a system reset
or machine check with RI = 0 (R453). Log 18. -/
def Obligations.ExceptionEntry : Prop :=
  ∀ (e : Exc) (a info : DWord) (s : State), ∃ t, t = s.take e a info ∧ entered s t e a info ∧
    (s.cfg.xlen64 = true → s.cfg.hasBridge = true →
      t.msrBit msrSF = s.msrBit msrISF ∧ t.msrBit msrISF = s.msrBit msrISF) ∧
    (s.cfg.xlen64 = true → s.cfg.hasBridge = false → t.msrBit msrSF = true) ∧
    (t.decRequest = true ↔ s.decRequest = true ∧ e ≠ .decrementer) ∧
    t.storedSinceSync =
      (if (e = .systemReset ∨ e = .machineCheck) ∧ s.msrBit msrRI = false then s.storedSinceSync
       else []) ∧
    sameMemory s t ∧
    t = { s with srr0 := t.srr0, srr1 := t.srr1, msr := t.msr, decRequest := t.decRequest,
                 pc := t.pc, storedSinceSync := t.storedSinceSync, lastExc := some e }

/-- A step runs the decoded instruction: where nothing is requested at the boundary, the processor
runs, and the bytes at pc decode to `i`, the step is `exec i` at the boundary state, with what a
fetch under translation modifies (SRR0 and SRR1, R152; the page table, R193), followed by the trace
of R444. Log 18. -/
def Obligations.StepRunsDecoded : Prop :=
  ∀ (s t : State) (w : Word) (i : Instr), quietBoundary s t → t.fetch = .word w →
    decode w = .ok i → step s = t.afterInstr i (exec i t.clobberFetch)

/-- The fetch reads the word at the physical address pc translates to, with translation off pc itself,
where the platform has its four bytes and none was stored to since the last context synchronizing
event (R172, R180, R202). Log 18. -/
def Obligations.FetchReadsMemory : Prop :=
  ∀ (s : State) (pa : DWord) (marks : List Host.Cell) (at4 : Nat → DWord),
    s.fetchWalk (s.ea s.pc) = .phys pa marks → at4 = (fun j => s.x (pa + BitVec.ofNat 64 j)) →
    allPresent s 4 at4 → (∀ j, j < 4 → (at4 j).toNat ∉ s.storedSinceSync) →
    (s.msrBit msrIR = false → pa = s.ea s.pc) ∧
      ∃ w, s.fetch = .word w ∧ w.toNat = wordAt s.mem at4

/-- The order at a boundary (R438, R439, R451, R454, D28): a reset is taken first, in the checkstop
state too, a hard one (R455, R482) giving the power-up state with memory and the environment as they
are (log 24), a soft one its exception; the checkstop state executes nothing and, with no input queued
that could end it, stops (log 23); then a
machine check, which is the exception with ME = 1 and the checkstop state with ME = 0, then with EE
= 1 the external interrupt, then the decrementer, which clears the request. Each entry has SRR0 at
the next instruction (R446); for a machine check, where hardware may save another, that is the
model's choice (log 25). Log 18. -/
def Obligations.BoundaryOrder : Prop :=
  ∀ s t : State, t = s.atBoundary →
    (s.nextInput.reset = some .hard → step s = .next
      { State.resetOf s.cfg with mem := s.mem, storedSinceSync := s.storedSinceSync,
                                 inputs := s.inputs.tail, extReplies := s.extReplies,
                                 extSent := s.extSent, draws := s.draws + 1 }) ∧
    (s.nextInput.reset = none → t.checkstop = true →
      (s.inputs ≠ [] → step s = .next t) ∧ (s.inputs = [] → step s = .fault .checkstop)) ∧
    (s.nextInput.reset = some .soft →
      ∃ u, step s = .next u ∧ entered t u .systemReset t.pc 0 ∧ u.checkstop = false) ∧
    (s.nextInput.reset = none → t.checkstop = false → t.msrBit msrLE = false →
      (t.cfg.hasPow = true → t.msrBit msrPOW = false) →
      (s.nextInput.mcRequest = true → t.msrBit msrME = true →
        ∃ u info, step s = .next u ∧ entered t u .machineCheck t.pc info) ∧
      (s.nextInput.mcRequest = true → t.msrBit msrME = false →
        step s = .next { t with checkstop := true }) ∧
      (s.nextInput.mcRequest = false → t.msrBit msrEE = true → s.nextInput.extInt = true →
        ∃ u, step s = .next u ∧ entered t u .externalInterrupt t.pc 0 ∧
          u.decRequest = t.decRequest) ∧
      (s.nextInput.mcRequest = false → t.msrBit msrEE = true → s.nextInput.extInt = false →
        t.decRequest = true →
        ∃ u, step s = .next u ∧ entered t u .decrementer t.pc 0 ∧ u.decRequest = false))

/-- The branches of R444. -/
def Sys2Proof.Statements.isBranch : Instr → Bool
  | .b _ _ _ => true
  | .bc _ _ _ _ _ => true
  | .bclr _ _ _ => true
  | .bcctr _ _ _ => true
  | _ => false

/-- Trace (R444): where an instruction completes without an exception, a single-step trace follows
with SE = 1 at its start and, after a branch, a branch trace with BE = 1, where the implementation
has them; `rfi` and `rfid` are not traced, nor is an instruction with neither. SRR0 is the next
instruction, and all the instruction did stays but for what the entry writes. Log 18. -/
def Obligations.TraceFollows : Prop :=
  ∀ (s t u : State) (w : Word) (i : Instr), quietBoundary s t →
    t.fetch = .word w → decode w = .ok i → exec i t.clobberFetch = .next u → u.lastExc = none →
    u.checkstop = false →
    (t.cfg.hasSe = true ∧ t.msrBit msrSE = true ∧ i ≠ .rfi ∧ i ≠ .rfid ∨
      t.cfg.hasBe = true ∧ t.msrBit msrBE = true ∧ isBranch i = true →
      ∃ v, step s = .next v ∧ entered u v .trace u.pc 0 ∧ sameMemory u v ∧
        v = { u with srr0 := v.srr0, srr1 := v.srr1, msr := v.msr, pc := v.pc,
                     storedSinceSync := [], lastExc := some .trace }) ∧
    (i = .rfi ∨ i = .rfid → step s = .next u) ∧
    (t.cfg.hasSe = false ∨ t.msrBit msrSE = false →
      t.cfg.hasBe = false ∨ t.msrBit msrBE = false ∨ isBranch i = false → step s = .next u)

/-- The time base (R98): one tick adds 1 to TBL and carries into TBU, so that n ticks add n to the
64-bit TB modulo 2^64; nothing signals the wrap and no exception is generated: pc, MSR and the
registers an entry writes stay. -/
def Obligations.TimeBaseCounts : Prop :=
  ∀ (n : Nat) (s : State),
    ((State.ticks 1 s).tbl.toNat = (s.tbl.toNat + 1) % 2 ^ 32 ∧
      (State.ticks 1 s).tbu.toNat =
        (s.tbu.toNat + if s.tbl.toNat = 2 ^ 32 - 1 then 1 else 0) % 2 ^ 32) ∧
    (State.ticks n s).timeBase.toNat = (s.timeBase.toNat + n) % 2 ^ 64 ∧
    State.ticks n s = { s with tbu := (State.ticks n s).tbu, tbl := (State.ticks n s).tbl,
                               dec := (State.ticks n s).dec,
                               decRequest := (State.ticks n s).decRequest }

/-- The decrementer (R351, R352, with the ratio of D6): the ticks of a boundary, computed at once, are
the single ticks one after another; after n of them DEC is one less for each decrement modulo 2^32,
and a request is pending exactly if one was or DEC passed through zero. Log 18, log 31. -/
def Obligations.DecrementerCounts : Prop :=
  ∀ (n : Nat) (s : State), s.applyTicks n = State.ticks n s ∧
    ((State.ticks n s).dec.toNat : Int) = ((s.dec.toNat : Int) - (n * s.cfg.decPerTb : Nat)) % 2 ^ 32 ∧
    ((State.ticks n s).decRequest = true ↔
      s.decRequest = true ∨ s.dec.toNat + 1 ≤ n * s.cfg.decPerTb)

/-! ## Reset and the invariants -/

/-- Power-up of every implementation (R122, R481, R482): MSR with its reserved bits 0 (log 4), pc at
the system reset vector, no decrementer request. By the model's choice nothing is listed in memory,
which the spec leaves to the platform (log 5, log 37), and the processor is not in the checkstop state
(log 23). The invariants of the steps hold. Log 18. -/
def Obligations.ResetState : Prop :=
  ∀ c : Config, ∃ s, s = State.resetOf c ∧ s.cfg = c ∧
    s.msr.toNat = (if c.xlen64 then 2 ^ 63 else 0) + (if c.xlen64 && c.hasBridge then 2 ^ 61 else 0) +
      (if c.msrIpReset then 0x40 else 0) ∧
    s.pc.toNat = (if c.msrIpReset then (if c.xlen64 then 0xFFFFFFFFFFF00100 else 0xFFF00100)
      else 0x100) ∧
    s.decRequest = false ∧ s.mem = [] ∧ s.checkstop = false ∧ s.memOk = true ∧ s.pcAligned = true ∧
    s.pcInMode = true ∧ s.widthsOk = true

/-- Every step keeps memory, bytes at physical addresses (R170), in the canonical form that the
model chose for it: addresses strictly rising, no byte listed that reads the same unlisted (log 5).
Log 18. -/
def Obligations.StepKeepsMemory : Prop :=
  ∀ s t : State, s.memOk = true → step s = .next t → t.memOk = true

/-- Every step keeps pc a multiple of 4, and its high half 0 in 32-bit mode (R166; entries by log 21,
moves to MSR by log 32). Log 18. -/
def Obligations.StepKeepsPcAligned : Prop :=
  ∀ s t : State, step s = .next t →
    (s.pcAligned = true → t.pcAligned = true) ∧ (s.pcInMode = true → t.pcInMode = true)

/-- Every step keeps every XLEN-wide register within XLEN bits: on a 32-bit implementation the
high-order halves stay 0 (R33, log 2). -/
def Obligations.StepKeepsWidths : Prop :=
  ∀ s t : State, s.widthsOk = true → step s = .next t → t.widthsOk = true

/-- No step changes the implementation's parameters, so none changes PVR (R5, R126); and FEX and VX
are never stored (R300 c). -/
def Obligations.StepKeepsParameters : Prop :=
  ∀ s t : State, step s = .next t → t.cfg = s.cfg ∧
    (s.fpscr &&& fpscrComputed = 0 → t.fpscr &&& fpscrComputed = 0)

/-- The instructions that access data. -/
def Sys2Proof.Statements.accessesData : Instr → Bool
  | .lwz _ _ _ => true
  | .lswx _ _ _ => true
  | .stswx _ _ _ => true
  | .eciwx _ _ _ => true
  | .ecowx _ _ _ => true
  | _ => false

/-- At user level an instruction that takes no exception leaves every supervisor-level register as
it was: the level changes only through an exception (R103, R460, R461, R462). SRR0 and SRR1 stay
too, but for a data access under translation where the implementation modifies them (R152). Log 18.
-/
def Obligations.UserCannotAlter : Prop :=
  ∀ (i : Instr) (s t : State), s.user = true → s.lastExc = none → exec i s = .next t →
    t.lastExc = none →
    t.msr = s.msr ∧ t.sr = s.sr ∧ t.asr = s.asr ∧ t.sdr1 = s.sdr1 ∧ t.ibatU = s.ibatU ∧
      t.ibatL = s.ibatL ∧ t.dbatU = s.dbatU ∧ t.dbatL = s.dbatL ∧ t.sprg = s.sprg ∧
      t.dar = s.dar ∧ t.dsisr = s.dsisr ∧ t.dec = s.dec ∧ t.decRequest = s.decRequest ∧
      t.tbu = s.tbu ∧ t.tbl = s.tbl ∧ t.dabr = s.dabr ∧ t.ear = s.ear ∧ t.pir = s.pir ∧
      t.fpecr = s.fpecr ∧
      (s.msrBit msrDR = false ∨ s.cfg.srrClobber = false ∨ accessesData i = false →
        t.srr0 = s.srr0 ∧ t.srr1 = s.srr1)
end

