-- ==== Sys2Proof/Laws/Memory.lean ====
section
/-! SUPPORT. Laws of memory: every operation keeps the canonical form; a read after a write. -/

namespace Sys2Proof.Machine

/-- A canonical form above `hi` is one above every smaller bound. -/
theorem Memory.wfAbove_mono {lo hi : Nat} (h : lo ≤ hi) :
    ∀ {m : List Host.Cell}, Memory.wfAbove hi m = true → Memory.wfAbove lo m = true
  | [], _ => rfl
  | (k, v) :: rest, hm => by
    simp only [Memory.wfAbove, Bool.and_eq_true, decide_eq_true_eq] at hm ⊢
    exact ⟨⟨by omega, hm.1.2⟩, hm.2⟩

/-- A write keeps the canonical form. -/
theorem Memory.wfAbove_write {a : Nat} {v : Byte} :
    ∀ {lo : Nat} {m : List Host.Cell}, lo ≤ a → Memory.wfAbove lo m = true →
      Memory.wfAbove lo (Memory.write m a v) = true
  | lo, [], ha, _ => by
    simp only [Memory.write]
    split
    · rfl
    · simp_all [Memory.wfAbove]
  | lo, (k, w) :: rest, ha, hm => by
    simp only [Memory.wfAbove, Bool.and_eq_true, decide_eq_true_eq] at hm
    obtain ⟨⟨hk, hw⟩, hr⟩ := hm
    simp only [Memory.write]
    split
    · split
      · simp [Memory.wfAbove, hk, hw, hr]
      · rename_i hak hv
        simp [Memory.wfAbove, ha, hv, hw, hr, hak]
    · split
      · rename_i hak
        subst hak
        split
        · exact Memory.wfAbove_mono (by omega) hr
        · rename_i hv
          simp [Memory.wfAbove, hk, hv, hr]
      · have := Memory.wfAbove_write (a := a) (v := v) (lo := k + 1) (by omega) hr
        simp [Memory.wfAbove, hk, hw, this]

/-- A write keeps the canonical form. -/
theorem Memory.wf_write {m : List Host.Cell} (a : Nat) (v : Byte) (h : Memory.wf m = true) :
    Memory.wf (Memory.write m a v) = true :=
  Memory.wfAbove_write (Nat.zero_le a) h

/-- A sequence of writes keeps the canonical form. -/
theorem Memory.wf_writeAll : ∀ (as : List DWord) (vs : List Byte) {m : List Host.Cell},
    Memory.wf m = true → Memory.wf (Memory.writeAll m as vs) = true
  | [], _, _, h => by simpa [Memory.writeAll] using h
  | _ :: _, [], _, h => by simpa [Memory.writeAll] using h
  | a :: as, v :: vs, _, h => by
    simpa [Memory.writeAll] using Memory.wf_writeAll as vs (Memory.wf_write a.toNat v h)

/-- An address below a canonical form reads as unlisted. -/
theorem Memory.read_of_lt {a : Nat} : ∀ {lo : Nat} {m : List Host.Cell}, a < lo →
    Memory.wfAbove lo m = true → Memory.read m a = Memory.unlisted
  | _, [], _, _ => rfl
  | lo, (k, v) :: rest, ha, hm => by
    simp only [Memory.wfAbove, Bool.and_eq_true, decide_eq_true_eq] at hm
    have hne : ¬ k = a := by omega
    simp only [Memory.read, hne, if_false]
    exact Memory.read_of_lt (lo := k + 1) (by omega) hm.2

end Sys2Proof.Machine
end

