-- ==== Sys2Proof/Laws/Ops.lean ====
section
/-! SUPPORT. For each shared operation, one lemma that says what it can do: what it reads back, what
it answers when it answers a next state. -/

namespace Sys2Proof.Machine

/-! ## Widths -/

theorem low_low (v : DWord) : low (low v) = low v := by
  simp [low, BitVec.and_assoc]

/-- Narrowing twice is narrowing once. -/
@[simp] theorem xlenOf_xlenOf (c : Config) (v : DWord) : xlenOf c (xlenOf c v) = xlenOf c v := by
  unfold xlenOf; split <;> simp [low_low]

@[simp] theorem State.ea_ea (s : State) (v : DWord) : s.ea (s.ea v) = s.ea v := by
  unfold State.ea; split <;> simp [low_low]

/-- An effective address fits an XLEN-wide register. -/
@[simp] theorem State.x_ea (s : State) (v : DWord) : s.x (s.ea v) = s.ea v := by
  unfold State.x State.ea xlenOf State.mode64
  cases s.cfg.xlen64 <;> simp [low_low]

theorem low_toNat (v : DWord) : (low v).toNat = v.toNat % 2 ^ 32 := by
  simp only [low, BitVec.toNat_and, BitVec.toNat_ofNat]
  exact Nat.and_two_pow_sub_one_eq_mod v.toNat 32

theorem xlenOf_toNat (c : Config) (v : DWord) :
    (xlenOf c v).toNat = v.toNat % 2 ^ (if c.xlen64 then 64 else 32) := by
  unfold xlenOf
  split
  · simp [Nat.mod_eq_of_lt v.isLt]
  · exact low_toNat v

theorem State.ea_toNat (s : State) (v : DWord) :
    (s.ea v).toNat = v.toNat % 2 ^ (if s.mode64 then 64 else 32) := by
  unfold State.ea
  split
  · simp [Nat.mod_eq_of_lt v.isLt]
  · exact low_toNat v

/-- The bits of two joined words. -/
theorem joinWords_getLsbD (h l : Word) (i : Nat) :
    (joinWords h l).getLsbD i = if i < 32 then l.getLsbD i else h.getLsbD (i - 32) :=
  BitVec.getLsbD_append

/-- The low-order word of two joined words. -/
@[simp] theorem lo32_joinWords (h l : Word) : lo32 (joinWords h l) = l := by
  apply BitVec.eq_of_getLsbD_eq
  intro i hi
  simp [lo32, joinWords_getLsbD, hi]

/-- The high-order word of two joined words. -/
@[simp] theorem hi32_joinWords (h l : Word) : hi32 (joinWords h l) = h := by
  apply BitVec.eq_of_getLsbD_eq
  intro i hi
  simp [hi32, joinWords_getLsbD, hi]

@[simp] theorem lo32_zext (w : Word) : lo32 (zext w) = w := by
  simp [lo32, zext]

@[simp] theorem hi32_zext (w : Word) : hi32 (zext w) = 0 := by
  apply BitVec.eq_of_toNat_eq
  have := w.isLt
  simp [hi32, zext, Nat.shiftRight_eq_div_pow]
  omega

/-! ## Registers -/

@[simp] theorem State.getGpr_setGpr_same (s : State) (r : RegNum) (v : DWord) :
    (s.setGpr r v).getGpr r = s.x v := by
  simp [State.getGpr, State.setGpr]

theorem State.getGpr_setGpr_of_ne (s : State) {r q : RegNum} (v : DWord) (h : q ≠ r) :
    (s.setGpr r v).getGpr q = s.getGpr q := by
  have : r.toNat ≠ q.toNat := fun e => h (BitVec.eq_of_toNat_eq e.symm)
  simp [State.getGpr, State.setGpr, this]

@[simp] theorem State.getFpr_setFpr_same (s : State) (r : RegNum) (v : DWord) :
    (s.setFpr r v).getFpr r = v := by
  simp [State.getFpr, State.setFpr]

theorem State.getFpr_setFpr_of_ne (s : State) {r q : RegNum} (v : DWord) (h : q ≠ r) :
    (s.setFpr r v).getFpr q = s.getFpr q := by
  have : r.toNat ≠ q.toNat := fun e => h (BitVec.eq_of_toNat_eq e.symm)
  simp [State.getFpr, State.setFpr, this]

@[simp] theorem State.getSr_setSr_same (s : State) (i : BitVec 4) (w : Word) :
    (s.setSr i w).getSr i = w := by
  simp [State.getSr, State.setSr]

theorem State.getSr_setSr_of_ne (s : State) {i j : BitVec 4} (w : Word) (h : j ≠ i) :
    (s.setSr i w).getSr j = s.getSr j := by
  have : i.toNat ≠ j.toNat := fun e => h (BitVec.eq_of_toNat_eq e.symm)
  simp [State.getSr, State.setSr, this]

/-- Reading a general register depends on the register file only. -/
theorem State.getGpr_congr {s t : State} (h : t.gpr = s.gpr) (r : RegNum) :
    t.getGpr r = s.getGpr r := by simp [State.getGpr, h]

/-- The mode depends on the configuration and MSR only. -/
theorem State.mode64_congr {s t : State} (hc : t.cfg = s.cfg) (hm : t.msr = s.msr) :
    t.mode64 = s.mode64 := by simp [State.mode64, State.msrBit, hc, hm]

/-- So does an effective address. -/
theorem State.ea_congr {s t : State} (hc : t.cfg = s.cfg) (hm : t.msr = s.msr) (v : DWord) :
    t.ea v = s.ea v := by simp [State.ea, State.mode64_congr hc hm]

/-- And with pc, the address of the next instruction. -/
theorem State.nextPc_congr {s t : State} (hc : t.cfg = s.cfg) (hm : t.msr = s.msr)
    (hp : t.pc = s.pc) : t.nextPc = s.nextPc := by
  simp [State.nextPc, State.ea_congr hc hm, hp]

/-- The narrowing depends on the configuration only. -/
theorem State.x_congr {s t : State} (hc : t.cfg = s.cfg) (v : DWord) : t.x v = s.x v := by
  simp [State.x, hc]

/-! ## Bits -/

theorem srcBit_eq (w : Word) (b : RegNum) : srcBit w b = w.getLsbD (31 - b.toNat) := rfl

theorem mergeBits_getLsbD {n : Nat} (mask old v : BitVec n) (b : Nat) :
    (mergeBits mask old v).getLsbD b = if mask.getLsbD b then v.getLsbD b else old.getLsbD b := by
  by_cases hb : b < n
  · simp only [mergeBits, BitVec.getLsbD_or, BitVec.getLsbD_and, BitVec.getLsbD_not]
    cases mask.getLsbD b <;> simp [hb]
  · simp [BitVec.getLsbD_of_ge _ b (Nat.le_of_not_lt hb)]

/-- The bit put is the bit read; every other bit stays. -/
theorem putBit_getLsbD (w : Word) {b : Nat} (hb : b < 32) (v : Bool) (c : Nat) :
    (putBit w b v).getLsbD c = if c = b then v else w.getLsbD c := by
  by_cases hc : c < 32
  · unfold putBit
    by_cases h : c = b
    · subst h; cases v <;> simp [hc]
    · have key : (1#32 <<< b).getLsbD c = false := by
        simp only [BitVec.getLsbD_shiftLeft, BitVec.getLsbD_one]
        simp; omega
      cases v
      · simp only [Bool.false_eq_true, if_false, BitVec.getLsbD_and, BitVec.getLsbD_not, key, if_neg h]
        simp [hc]
      · simp only [if_true, BitVec.getLsbD_or, key, if_neg h, Bool.or_false]
  · have h : c ≠ b := by omega
    simp [BitVec.getLsbD_of_ge _ c (Nat.le_of_not_lt hc), h]

/-- What a move leaves in each bit of FPSCR: XX where it writes FI and not XX, else what it writes
where it may, else the old bit. -/
theorem fpscrMoved_getLsbD (f mask v : Word) (b : Nat) :
    (fpscrMoved f mask v).getLsbD b =
      if b = 25 ∧ mask.getLsbD 17 = true ∧ mask.getLsbD 25 = false then
        f.getLsbD 25 || v.getLsbD 17
      else if (mask &&& ~~~fpscrComputed).getLsbD b then v.getLsbD b else f.getLsbD b := by
  unfold fpscrMoved
  cases h1 : mask.getLsbD 17 <;> cases h2 : mask.getLsbD 25 <;>
    simp [putBit_getLsbD, mergeBits_getLsbD]

/-- A read gives every bit outside the reserved ones as it was last written. -/
theorem State.view_getLsbD_of_defined (s : State) (who : ReservedReader) (mask v : DWord) {b : Nat}
    (h : mask.getLsbD b = false) : (s.view who mask v).getLsbD b = v.getLsbD b := by
  by_cases hb : b < 64
  · unfold State.view
    split
    · rfl
    · split <;>
        simp only [BitVec.getLsbD_or, BitVec.getLsbD_and, BitVec.getLsbD_not, h] <;> simp [hb]
  · simp [BitVec.getLsbD_of_ge _ b (Nat.le_of_not_lt hb)]

/-- A bit last written as 0 reads 0. -/
theorem State.view_getLsbD_of_zero (s : State) (who : ReservedReader) (mask v : DWord) {b : Nat}
    (h : v.getLsbD b = false) : (s.view who mask v).getLsbD b = false := by
  unfold State.view
  split
  · exact h
  · split <;> simp [h]

/-! ## Exceptions and segments -/

/-- Only a system reset or machine check with MSR[RI] = 0 is not context synchronizing. -/
theorem State.excSynchronizes_eq_false {s : State} {e : Exc} :
    s.excSynchronizes e = false ↔
      (e = .systemReset ∨ e = .machineCheck) ∧ s.msrBit msrRI = false := by
  cases e <;> simp [State.excSynchronizes]

/-- When the segment registers take part in translation. -/
theorem State.segmentRegisters_iff (s : State) :
    s.segmentRegisters = true ↔ s.cfg.xlen64 = false ∨
      (s.cfg.hasBridge = true ∧ s.asr.getLsbD 0 = false ∧ s.msrBit msrSF = false) := by
  unfold State.segmentRegisters asrV Config.bridge
  cases s.cfg.xlen64 <;> cases s.cfg.hasBridge <;> simp

/-- Where an address goes that no BAT pair matches: its stop, a direct-store segment, the no-execute
fault of a fetch, or the page-table search. -/
theorem State.segmentWalk_cases (s : State) (kind : AccessKind) (ea : DWord) :
    (s.segmentRegisters = false ∧ asrV s.cfg s.asr = true ∧ asrTableAllowed s.asr = false ∧
      s.segmentWalk kind ea = .refused .segmentTableReserved) ∨
    (s.segmentRegisters = true ∧ srT (s.getSr (srSelect ea)) = true ∧
      s.segmentWalk kind ea = .fault .directStore) ∨
    (s.segmentRegisters = true ∧ srN (s.getSr (srSelect ea)) = true ∧ kind = .fetch ∧
      s.segmentWalk kind ea = .fault .noExecute) ∨
    ∃ page, s.segmentWalk kind ea = s.pageWalk kind page ea := by
  unfold State.segmentWalk
  cases s.segmentRegisters
  · cases hv : asrV s.cfg s.asr
    · exact .inr (.inr (.inr ⟨_, by simp; rfl⟩))
    · cases h : asrTableAllowed s.asr
      · exact .inl ⟨rfl, rfl, rfl, by simp⟩
      · exact .inr (.inr (.inr ⟨_, by simp; rfl⟩))
  · cases hT : srT (s.getSr (srSelect ea))
    · by_cases hN : srN (s.getSr (srSelect ea)) = true ∧ kind = .fetch
      · exact .inr (.inr (.inl ⟨rfl, hN.1, hN.2, by simp [hT, hN.1, hN.2]⟩))
      · exact .inr (.inr (.inr ⟨_, by simp [hT, hN]; rfl⟩))
    · exact .inr (.inl ⟨rfl, rfl, by simp [hT]⟩)

/-- A search marks bytes of the page table only. -/
theorem State.pageMarks_inPageTable (s : State) (r : PageResult) :
    ∀ c ∈ s.pageMarks r, s.inPageTable c.1 = true := by
  cases r with
  | found frame marks => exact fun c hc => (List.mem_filter.mp hc).2
  | fault f => exact fun c hc => by cases hc

/-- A search refers to the valid segment table's page and to the page table only. -/
theorem State.searchRefs_cases (s : State) (page : PageName) (a : PageAnswer) {r : DWord}
    (h : r ∈ s.searchRefs page a) :
    (∃ table p, page = .effective (some table) p ∧ ∃ o : BitVec 12, r = table + o.setWidth 64) ∨
    ∃ n, r = BitVec.ofNat 64 n ∧ s.inPageTable n = true := by
  unfold State.searchRefs at h
  rcases List.mem_append.mp h with h | h
  · unfold segmentRefs at h
    split at h
    · obtain ⟨o, _, rfl⟩ := List.mem_map.mp h
      exact .inl ⟨_, _, rfl, o, rfl⟩
    · cases h
    · cases h
  · obtain ⟨n, hn, rfl⟩ := List.mem_map.mp h
    refine .inr ⟨n, rfl, ?_⟩
    rcases List.mem_append.mp hn with hn | hn
    · exact (List.mem_filter.mp hn).2
    · obtain ⟨c, hc, rfl⟩ := List.mem_map.mp hn
      exact State.pageMarks_inPageTable s _ c hc

/-- What a page-table search answers: a page, whose marks lie in the page table, a fault that a fetch
alone reports as no-execute, or that it refers to an address the platform does not have. -/
theorem State.pageWalk_cases (s : State) (kind : AccessKind) (page : PageName) (ea : DWord) :
    (∃ frame marks, s.pageWalk kind page ea = .phys (s.x (pagePhysical frame ea)) marks ∧
      ∀ c ∈ marks, s.inPageTable c.1 = true) ∨
    (∃ f, s.pageWalk kind page ea = .fault f ∧ (f = .noExecute → kind = .fetch)) ∨
    (s.pageWalk kind page ea = .absent ∧ ∃ a, ∃ r ∈ s.searchRefs page a, present s.cfg r = false) ∨
    (sdr1WellFormed s.cfg s.sdr1 = false ∧ s.pageWalk kind page ea = .refused .sdr1Malformed) := by
  unfold State.pageWalk
  split
  · simp only
    split
    · split
      · exact .inl ⟨_, _, rfl, fun c hc => State.pageMarks_inPageTable s _ c hc⟩
      · rename_i f _
        refine .inr (.inl ⟨_, rfl, fun h => ?_⟩)
        cases f <;> cases kind <;> simp [faultSeen] at h ⊢ <;> split at h <;> cases h
    · rename_i h
      exact .inr (.inr (.inl ⟨rfl, _, by simpa using h⟩))
  · rename_i h
    exact .inr (.inr (.inr ⟨by simpa using h, rfl⟩))

/-- What translation answers: a stop, a block's address or its protection fault, or what the segments
and pages give. -/
theorem State.walk_cases (s : State) (us ls : Vector DWord 4) (kind : AccessKind) (ea : DWord) :
    s.walk us ls kind ea = .refused .batMalformed ∨ s.walk us ls kind ea = .refused .batConflict ∨
    (∃ pa, s.walk us ls kind ea = .phys (s.x pa) []) ∨
    s.walk us ls kind ea = .fault .protection ∨
    s.walk us ls kind ea = s.segmentWalk kind ea := by
  unfold State.walk
  simp only
  split
  · exact .inl rfl
  · split
    · exact .inr (.inr (.inr (.inr rfl)))
    · split
      · exact .inr (.inr (.inl ⟨_, rfl⟩))
      · exact .inr (.inr (.inr (.inl rfl)))
    · exact .inr (.inl rfl)

/-- Without marks memory stays. -/
@[simp] theorem State.markPages_nil (s : State) : s.markPages [] = s := rfl

/-- Marks change memory only. -/
theorem State.markPages_eq (s : State) (marks : List Host.Cell) :
    s.markPages marks = { s with mem := (s.markPages marks).mem } := rfl

/-- Marks keep the canonical form of memory. -/
theorem State.markPages_wf (s : State) : ∀ (marks : List Host.Cell), Memory.wf s.mem = true →
    Memory.wf (s.markPages marks).mem = true
  | [], h => h
  | c :: cs, h =>
    State.markPages_wf { s with mem := Memory.write s.mem c.1 c.2 } cs (Memory.wf_write _ _ h)

/-! ## Guards: what answers a next state -/

theorem State.ifExists_next {s t : State} {there : Bool} {k : Result}
    (h : s.ifExists there k = .next t) :
    (there = true ∧ k = .next t) ∨ (there = false ∧ t = s.takeProgram .illegal) := by
  unfold State.ifExists State.illegal at h
  cases there
  · exact .inr ⟨rfl, by simpa using h.symm⟩
  · exact .inl ⟨rfl, by simpa using h⟩

theorem State.ifSupervisor_next {s t : State} {k : Result} (h : s.ifSupervisor k = .next t) :
    (s.user = false ∧ k = .next t) ∨ (s.user = true ∧ t = s.takeProgram .privileged) := by
  unfold State.ifSupervisor State.privileged at h
  cases hu : s.user <;> simp only [hu] at h
  · exact .inl ⟨rfl, by simpa using h⟩
  · exact .inr ⟨rfl, by simpa using h.symm⟩

theorem State.ifFp_next {s t : State} {k : Result} (h : s.ifFp k = .next t) :
    (s.msrBit msrFP = true ∧ k = .next t) ∨
      (s.msrBit msrFP = false ∧ t = s.take .fpUnavailable s.pc 0) := by
  unfold State.ifFp at h
  cases hu : s.msrBit msrFP <;> simp only [hu] at h
  · exact .inr ⟨rfl, by simpa using h.symm⟩
  · exact .inl ⟨rfl, by simpa using h⟩

theorem State.ifCompareForm_next {s t : State} {l : Bool} {k : Result}
    (h : s.ifCompareForm l k = .next t) : (l = true → s.cfg.xlen64 = true) ∧ k = .next t := by
  unfold State.ifCompareForm at h
  split at h
  · cases h
  · rename_i hc
    refine ⟨fun hl => ?_, h⟩
    simpa [hl] using hc

theorem State.undefinedSpr_next {s t : State} (h : s.undefinedSpr = .next t) :
    t = s.takeProgram .illegal ∨ t = s.takeProgram .privileged := by
  unfold State.undefinedSpr State.illegal State.privileged at h
  split at h
  · exact .inl (by simpa using h.symm)
  · exact .inr (by simpa using h.symm)
  · cases h

/-- A floating-point instruction ends in the enabled exception or moves on. -/
theorem State.fpDone_cases (s : State) :
    (fpscrFEX s.fpscr = true ∧ s.feEnabled = true ∧
      s.fpDone = .next (s.takeProgram .fpEnabled)) ∨
    ((fpscrFEX s.fpscr = false ∨ s.feEnabled = false) ∧ s.fpDone = .next s.advance) := by
  unfold State.fpDone
  cases h1 : fpscrFEX s.fpscr <;> cases h2 : s.feEnabled <;> simp

/-- After a change of MSR the enabled exception is taken or nothing more happens. -/
theorem State.afterMsrChange_next {old t u : State} (h : old.afterMsrChange t = .next u) :
    u = t ∨ (fpscrFEX t.fpscr = true ∧ t.feEnabled = true ∧
      u = t.take (.program .fpEnabled) t.pc (ProgramCause.fpEnabled.info ||| 0x00010000#64)) := by
  unfold State.afterMsrChange at h
  split at h
  · rename_i hc
    simp only [Bool.and_eq_true] at hc
    exact .inr ⟨hc.2, hc.1.2, by simpa using h.symm⟩
  · exact .inl (by simpa using h.symm)

/-- With no enabled floating-point exception waiting, a change of MSR has nothing to follow. -/
theorem State.afterMsrChange_of_quiet {old t : State} (h : fpscrFEX t.fpscr = false) :
    old.afterMsrChange t = .next t := by
  simp [State.afterMsrChange, h]

/-- A move to MSR writes MSR and pc, and may take the enabled floating-point exception. -/
theorem State.moveToMsr_next {s u : State} {m : DWord} (h : s.moveToMsr m = .next u) :
    ∃ t, t = { s with msr := s.x m, pc := t.pc } ∧
      t.pc = State.ea { s with msr := s.x m } s.nextPc ∧
      (u = t ∨ (fpscrFEX t.fpscr = true ∧ t.feEnabled = true ∧
        u = t.take (.program .fpEnabled) t.pc
          (ProgramCause.fpEnabled.info ||| 0x00010000#64))) := by
  unfold State.moveToMsr at h
  split at h
  · cases h
  · exact ⟨_, rfl, rfl, State.afterMsrChange_next h⟩

/-- A machine check is taken or stops the processor. -/
theorem State.takeMachineCheck_cases (s : State) :
    (s.msrBit msrME = true ∧ s.takeMachineCheck =
      s.take .machineCheck s.pc (zext (Config.freeMachineCheckInfo s.draws))) ∨
    (s.msrBit msrME = false ∧ s.takeMachineCheck = { s with checkstop := true }) := by
  unfold State.takeMachineCheck
  cases s.msrBit msrME <;> simp

theorem State.absentMemory_next {s t : State} (h : s.absentMemory = .next t) :
    s.cfg.absent = .machineCheck ∧ t = s.takeMachineCheck := by
  unfold State.absentMemory at h
  split at h
  · exact ⟨‹_›, by simpa using h.symm⟩
  · cases h

/-- What an access can lead to. -/
theorem State.onAccess_next {s t : State} {a : Access} {k : List DWord → State → Result}
    (h : s.onAccess a k = .next t) :
    (∃ pas marks, a = .ready pas marks ∧ k pas (s.markPages marks).clobberData = .next t) ∨
    (∃ dar cause, a = .dsi dar cause ∧ t = s.takeDsi dar cause) ∨
    (∃ dar, a = .alignment dar ∧ t = s.takeAlignment dar) ∨
    (a = .absent ∧ s.cfg.absent = .machineCheck ∧ t = s.takeMachineCheck) := by
  cases a with
  | ready pas marks => exact .inl ⟨pas, marks, rfl, h⟩
  | dsi dar cause => exact .inr (.inl ⟨dar, cause, rfl, by simpa [State.onAccess] using h.symm⟩)
  | alignment dar => exact .inr (.inr (.inl ⟨dar, rfl, by simpa [State.onAccess] using h.symm⟩))
  | absent => exact .inr (.inr (.inr ⟨rfl, State.absentMemory_next h⟩))
  | refused r => cases h

/-! ## Accesses -/

/-- Without translation a data access leaves SRR0 and SRR1. -/
theorem State.clobberData_of_real {s : State} (h : s.msrBit msrDR = false) : s.clobberData = s := by
  simp [State.clobberData, h]

/-- An access touches SRR0 and SRR1 at most, beside what it marks. -/
theorem State.clobberData_eq (s : State) :
    s.clobberData = { s with srr0 := s.clobberData.srr0, srr1 := s.clobberData.srr1 } := by
  unfold State.clobberData State.clobber
  split
  · split <;> rfl
  · rfl

/-- The implementation's change of SRR0 and SRR1 leaves memory. -/
theorem State.clobberData_mem (s : State) : s.clobberData.mem = s.mem := by
  rw [State.clobberData_eq]

/-- What a fetch leaves keeps the canonical form of memory. -/
theorem State.clobberFetch_wf {s : State} (h : Memory.wf s.mem = true) :
    Memory.wf s.clobberFetch.mem = true := by
  unfold State.clobberFetch State.clobber
  split
  · split <;> exact State.markPages_wf s _ h
  · exact h

theorem State.clobberFetch_of_real {s : State} (h : s.msrBit msrIR = false) :
    s.clobberFetch = s := by
  simp [State.clobberFetch, h]

/-- A fetch marks memory and touches SRR0 and SRR1 at most. -/
theorem State.clobberFetch_eq (s : State) :
    s.clobberFetch = { s with mem := s.clobberFetch.mem, srr0 := s.clobberFetch.srr0,
                              srr1 := s.clobberFetch.srr1 } := by
  unfold State.clobberFetch State.clobber
  split
  · split <;> rfl
  · rfl

/-- With translation off every byte's physical address is its effective address. -/
theorem State.translateBytes_of_real {s : State} (h : s.msrBit msrDR = false)
    (external store : Bool) : ∀ eas, s.translateBytes external store eas = .ready eas []
  | [] => rfl
  | ea :: rest => by
    simp [State.translateBytes, State.dataWalk, h, State.translateBytes_of_real h external store rest]

/-- Where every byte translates, the access is ready at the physical addresses, with all they mark. -/
theorem State.translateBytes_of_phys {s : State} {external store : Bool} {ea pa : Nat → DWord}
    {marks : Nat → List Host.Cell} : ∀ js : List Nat,
    (∀ j ∈ js, s.dataWalk store (ea j) = .phys (pa j) (marks j)) →
      s.translateBytes external store (js.map ea) = .ready (js.map pa) (js.flatMap marks)
  | [], _ => rfl
  | j :: js, h => by
    have ih := State.translateBytes_of_phys (external := external) js fun k hk => h k (by simp [hk])
    simp [State.translateBytes, h j (by simp), ih]

/-- A failed byte is a DSI, but for a load or store in a direct-store segment. -/
theorem failedAccess_eq {external store : Bool} {ea : DWord} {f : PageFault}
    (h : f = .directStore → external = true) :
    failedAccess external store ea f = .dsi ea (faultDsisr store f) := by
  cases f <;> simp [failedAccess] at h ⊢
  exact h

/-- The first byte whose translation fails decides a data access. -/
theorem State.translateBytes_of_fault {s : State} {external store : Bool} {ea : DWord}
    {f : PageFault} (hf : s.dataWalk store ea = .fault f) (rest : List DWord) :
    ∀ before : List DWord, (∀ b ∈ before, ∃ pa marks, s.dataWalk store b = .phys pa marks) →
      s.translateBytes external store (before ++ ea :: rest) = failedAccess external store ea f
  | [], _ => by simp [State.translateBytes, hf]
  | b :: bs, h => by
    obtain ⟨pa, marks, hb⟩ := h b (by simp)
    have ih := State.translateBytes_of_fault (external := external) hf rest bs fun c hc =>
      h c (by simp [hc])
    have hd : ∀ pas ms, failedAccess external store ea f ≠ .ready pas ms := by
      intro pas ms; unfold failedAccess; split <;> simp
    simp only [List.cons_append, State.translateBytes, hb, ih]

/-- A big-endian access with translation off that meets no breakpoint is ready at its effective
addresses. -/
theorem State.translateAccess_of_real {s : State} {external store : Bool} {ea : DWord} {n : Nat}
    (hl : s.msrBit msrLE = false) (hd : s.msrBit msrDR = false)
    (hb : s.dabrMatch store (s.byteEas ea n) = false) :
    s.translateAccess external store ea n = .ready (s.byteEas ea n) [] := by
  simp [State.translateAccess, hl, hb, State.translateBytes_of_real hd]

/-- A big-endian access whose bytes all translate and that meets no breakpoint is ready at their
physical addresses. -/
theorem State.translateAccess_of_phys {s : State} {external store : Bool} {ea : DWord} {n : Nat}
    {pa : Nat → DWord} {marks : Nat → List Host.Cell} (hl : s.msrBit msrLE = false)
    (hb : s.dabrMatch store (s.byteEas ea n) = false)
    (ht : ∀ j, j < n → s.dataWalk store (s.ea (ea + BitVec.ofNat 64 j)) = .phys (pa j) (marks j)) :
    s.translateAccess external store ea n =
      .ready ((List.range n).map pa) ((List.range n).flatMap marks) := by
  have h := State.translateBytes_of_phys (external := external) (List.range n)
    fun j hj => ht j (List.mem_range.mp hj)
  simp only [State.translateAccess, hl, hb, Bool.false_eq_true, if_false]
  exact h

/-- The same where the platform has every byte. -/
theorem State.accessBytes_of_phys {s : State} {store : Bool} {ea : DWord} {n : Nat}
    {pa : Nat → DWord} {marks : Nat → List Host.Cell} (hl : s.msrBit msrLE = false)
    (hb : s.dabrMatch store (s.byteEas ea n) = false)
    (ht : ∀ j, j < n → s.dataWalk store (s.ea (ea + BitVec.ofNat 64 j)) = .phys (pa j) (marks j))
    (hp : ∀ j, j < n → present s.cfg (pa j) = true) :
    s.accessBytes store ea n =
      .ready ((List.range n).map pa) ((List.range n).flatMap marks) := by
  have hp' : ((List.range n).map pa).all (present s.cfg) = true := by
    simpa [List.all_eq_true] using hp
  simp only [State.accessBytes, State.translateAccess_of_phys hl hb ht, hp', if_true]

/-- The same with translation off. -/
theorem State.accessBytes_of_real {s : State} {store : Bool} {ea : DWord} {n : Nat}
    (hl : s.msrBit msrLE = false) (hd : s.msrBit msrDR = false)
    (hb : s.dabrMatch store (s.byteEas ea n) = false)
    (hp : ∀ a ∈ s.byteEas ea n, present s.cfg a = true) :
    s.accessBytes store ea n = .ready (s.byteEas ea n) [] := by
  have : (s.byteEas ea n).all (present s.cfg) = true := List.all_eq_true.mpr hp
  simp [State.accessBytes, State.translateAccess_of_real hl hd hb, this]

/-! ## Results -/

/-- The end of an arithmetic instruction changes the general registers, XER, CR and pc only. -/
theorem State.arith_eq (s : State) (rd : RegNum) (r : DWord) (oe ov rc undef : Bool) :
    s.arith rd r oe ov rc undef =
      { s with gpr := (s.setGpr rd r).gpr
               xer := (s.arith rd r oe ov rc undef).xer
               cr := (s.arith rd r oe ov rc undef).cr
               pc := s.nextPc } := by
  unfold State.arith State.recordForm State.setOverflow
  cases oe <;> cases rc <;> cases undef <;> rfl

/-- What it leaves in rD and in every other register. -/
theorem State.getGpr_arith (s : State) (rd q : RegNum) (r : DWord) (oe ov rc undef : Bool) :
    (s.arith rd r oe ov rc undef).getGpr q = if q = rd then s.x r else s.getGpr q := by
  rw [State.arith_eq]
  split
  · rename_i h; subst h; exact State.getGpr_setGpr_same s q r
  · rename_i h; exact State.getGpr_setGpr_of_ne s r h

/-- A loaded string changes the general registers only. -/
theorem State.loadString_eq : ∀ (bs : List Byte) (s : State) (r : RegNum),
    s.loadString r bs = { s with gpr := (s.loadString r bs).gpr }
  | [], _, _ => rfl
  | [_], _, _ => rfl
  | [_, _], _, _ => rfl
  | [_, _, _], _, _ => rfl
  | _ :: _ :: _ :: _ :: rest, s, r => by
    simp only [State.loadString]
    rw [State.loadString_eq rest]
    rfl

/-! ## The step -/

/-- What a boundary that answers a next state did. -/
theorem State.boundary_next {t u : State} {i : Input} {last : Bool}
    (h : t.boundary i last = .next u) :
    (i.reset = some .hard ∧ u = t.hardReset) ∨ (i.reset = some .soft ∧ u = t.softReset) ∨
    (i.reset = none ∧
      ((t.checkstop = true ∧ last = false ∧ u = t) ∨
        (t.checkstop = false ∧ t.msrBit msrLE = false ∧ (t.cfg.hasPow && t.msrBit msrPOW) = false ∧
          ((i.mcRequest = true ∧ u = t.takeMachineCheck) ∨
            (i.mcRequest = false ∧
              ((t.msrBit msrEE = true ∧ i.extInt = true ∧
                  u = t.take .externalInterrupt t.pc 0) ∨
                (t.msrBit msrEE = true ∧ i.extInt = false ∧ t.decRequest = true ∧
                  u = t.take .decrementer t.pc 0) ∨
                ((t.msrBit msrEE && i.extInt) = false ∧ (t.msrBit msrEE && t.decRequest) = false ∧
                  t.runInstr = .next u))))))) := by
  unfold State.boundary at h
  split at h
  · exact .inl ⟨‹_›, by simpa using h.symm⟩
  · exact .inr (.inl ⟨‹_›, by simpa using h.symm⟩)
  · refine .inr (.inr ⟨‹_›, ?_⟩)
    cases hc : t.checkstop <;> simp only [hc] at h
    · refine .inr ⟨rfl, ?_⟩
      cases hle : t.msrBit msrLE <;> simp [hle] at h
      cases hp : (t.cfg.hasPow && t.msrBit msrPOW)
      · have hp' : ¬(t.cfg.hasPow = true ∧ t.msrBit msrPOW = true) := by simpa using hp
        simp only [if_neg hp'] at h
        refine ⟨rfl, rfl, ?_⟩
        cases hm : i.mcRequest <;> simp only [hm] at h
        · refine .inr ⟨rfl, ?_⟩
          cases he : t.msrBit msrEE <;> cases hx : i.extInt <;> cases hd : t.decRequest <;>
            simp only [he, hx, hd] at h ⊢ <;> simp at h ⊢ <;> first | exact h | exact h.symm
        · exact .inl ⟨rfl, by simpa using h.symm⟩
      · have hp' : t.cfg.hasPow = true ∧ t.msrBit msrPOW = true := by simpa using hp
        simp [hp'] at h
    · cases hl : last <;> simp [hl] at h
      exact .inl ⟨rfl, rfl, h.symm⟩

/-- What running an instruction that answers a next state did. -/
theorem State.runInstr_next {t u : State} (h : t.runInstr = .next u) :
    (∃ info, t.fetch = .isi info ∧ u = t.take .isi t.pc info) ∨
    (t.fetch = .absent ∧ t.absentMemory = .next u) ∨
    ∃ w i, t.fetch = .word w ∧ decode w = .ok i ∧
      t.afterInstr i (exec i t.clobberFetch) = .next u := by
  unfold State.runInstr at h
  split at h
  · rename_i info hf
    exact .inl ⟨info, hf, by simpa using h.symm⟩
  · exact .inr (.inl ⟨‹_›, h⟩)
  · cases h
  · rename_i w hf
    split at h
    · cases h
    · rename_i i hd
      exact .inr (.inr ⟨w, i, hf, hd, h⟩)

/-- What follows an instruction: its own next state, or the trace exception over it. -/
theorem State.afterInstr_next {start u : State} {i : Instr} {r : Result}
    (h : start.afterInstr i r = .next u) :
    ∃ v, r = .next v ∧ (u = v ∨ (start.traced i = true ∧ v.lastExc = none ∧ v.checkstop = false ∧
      u = v.take .trace v.pc 0)) := by
  unfold State.afterInstr at h
  split at h
  · rename_i v
    refine ⟨v, rfl, ?_⟩
    split at h
    · rename_i hc
      refine .inr ?_
      simp only [Bool.and_eq_true, Option.isNone_iff_eq_none, Bool.not_eq_true'] at hc
      exact ⟨hc.1.1, hc.1.2, hc.2, by simpa using h.symm⟩
    · exact .inl (by simpa using h.symm)
  · cases h
  · cases h

/-- The boundary state differs in the time base, the decrementer and its request, the inputs, the
step number and the record of the last exception only. -/
theorem State.atBoundary_eq (s : State) :
    s.atBoundary =
      { s with tbu := s.atBoundary.tbu, tbl := s.atBoundary.tbl, dec := s.atBoundary.dec,
               decRequest := s.atBoundary.decRequest, inputs := s.inputs.tail,
               draws := s.draws + 1, lastExc := none } := rfl

end Sys2Proof.Machine
end

