-- ==== Sys2Proof/Laws/PerInstr.lean ====
section
/-! SUPPORT. A law of every instruction as syntax: its encoding fits one word. -/

namespace Sys2Proof.Laws

/-- The instruction's number is that of a 32-bit word, so that encoding drops no bit. -/
def encoding.Statement (i : Instr) : Prop := encodeNat i < 2 ^ 32

/-- A split field is ten bits wide. -/
theorem sprField_lt (n : BitVec 10) : sprField n < 2 ^ 10 := by
  have := n.isLt
  simp only [sprField, bits]
  omega

/-- Every instruction's number is below 2^32. -/
theorem encodeNat_lt (i : Instr) : encodeNat i < 2 ^ 32 := by
  cases i <;> simp only [encodeNat, dForm, xForm, xoForm, xfxForm]
  case twi cond ra simm =>
    have := cond.isLt; have := ra.isLt; have := simm.isLt; omega
  case cmpli crfD l ra uimm =>
    have := crfD.isLt; have := Bool.toNat_le l; have := ra.isLt; have := uimm.isLt; omega
  case cmpi crfD l ra simm =>
    have := crfD.isLt; have := Bool.toNat_le l; have := ra.isLt; have := simm.isLt; omega
  case addicDot rd ra simm =>
    have := rd.isLt; have := ra.isLt; have := simm.isLt; omega
  case addi rd ra simm =>
    have := rd.isLt; have := ra.isLt; have := simm.isLt; omega
  case bc bo bi bd aa lk =>
    have := bo.isLt; have := bi.isLt; have := bd.isLt; have := Bool.toNat_le aa
    have := Bool.toNat_le lk; omega
  case sc => omega
  case b li aa lk =>
    have := li.isLt; have := Bool.toNat_le aa; have := Bool.toNat_le lk; omega
  case mcrf crfD crfS =>
    have := crfD.isLt; have := crfS.isLt; omega
  case bclr bo bi lk =>
    have := bo.isLt; have := bi.isLt; have := Bool.toNat_le lk; omega
  case rfid => omega
  case crnor crbD crbA crbB =>
    have := crbD.isLt; have := crbA.isLt; have := crbB.isLt; omega
  case rfi => omega
  case crandc crbD crbA crbB =>
    have := crbD.isLt; have := crbA.isLt; have := crbB.isLt; omega
  case crxor crbD crbA crbB =>
    have := crbD.isLt; have := crbA.isLt; have := crbB.isLt; omega
  case crnand crbD crbA crbB =>
    have := crbD.isLt; have := crbA.isLt; have := crbB.isLt; omega
  case crand crbD crbA crbB =>
    have := crbD.isLt; have := crbA.isLt; have := crbB.isLt; omega
  case creqv crbD crbA crbB =>
    have := crbD.isLt; have := crbA.isLt; have := crbB.isLt; omega
  case crorc crbD crbA crbB =>
    have := crbD.isLt; have := crbA.isLt; have := crbB.isLt; omega
  case cror crbD crbA crbB =>
    have := crbD.isLt; have := crbA.isLt; have := crbB.isLt; omega
  case bcctr bo bi lk =>
    have := bo.isLt; have := bi.isLt; have := Bool.toNat_le lk; omega
  case andiDot rs ra uimm =>
    have := rs.isLt; have := ra.isLt; have := uimm.isLt; omega
  case andisDot rs ra uimm =>
    have := rs.isLt; have := ra.isLt; have := uimm.isLt; omega
  case cmp crfD l ra rb =>
    have := crfD.isLt; have := Bool.toNat_le l; have := ra.isLt; have := rb.isLt; omega
  case tw cond ra rb =>
    have := cond.isLt; have := ra.isLt; have := rb.isLt; omega
  case subfc rd ra rb oe rc =>
    have := rd.isLt; have := ra.isLt; have := rb.isLt; have := Bool.toNat_le oe
    have := Bool.toNat_le rc; omega
  case mulhwu rd ra rb rc =>
    have := rd.isLt; have := ra.isLt; have := rb.isLt; have := Bool.toNat_le rc; omega
  case mfcr rd =>
    have := rd.isLt; omega
  case cmpl crfD l ra rb =>
    have := crfD.isLt; have := Bool.toNat_le l; have := ra.isLt; have := rb.isLt; omega
  case mulhw rd ra rb rc =>
    have := rd.isLt; have := ra.isLt; have := rb.isLt; have := Bool.toNat_le rc; omega
  case mfmsr rd =>
    have := rd.isLt; omega
  case mtcrf rs crm =>
    have := rs.isLt; have := crm.isLt; omega
  case mtmsr rs =>
    have := rs.isLt; omega
  case mtmsrd rs =>
    have := rs.isLt; omega
  case mtsr rs sr =>
    have := rs.isLt; have := sr.isLt; omega
  case mulld rd ra rb oe rc =>
    have := rd.isLt; have := ra.isLt; have := rb.isLt; have := Bool.toNat_le oe
    have := Bool.toNat_le rc; omega
  case mullw rd ra rb oe rc =>
    have := rd.isLt; have := ra.isLt; have := rb.isLt; have := Bool.toNat_le oe
    have := Bool.toNat_le rc; omega
  case mtsrin rs rb =>
    have := rs.isLt; have := rb.isLt; omega
  case tlbie rb =>
    have := rb.isLt; omega
  case eciwx rd ra rb =>
    have := rd.isLt; have := ra.isLt; have := rb.isLt; omega
  case mfspr rd spr =>
    have := rd.isLt; have := sprField_lt spr; omega
  case tlbia => omega
  case mftb rd tbr =>
    have := rd.isLt; have := sprField_lt tbr; omega
  case slbie rb =>
    have := rb.isLt; omega
  case ecowx rs ra rb =>
    have := rs.isLt; have := ra.isLt; have := rb.isLt; omega
  case divdu rd ra rb oe rc =>
    have := rd.isLt; have := ra.isLt; have := rb.isLt; have := Bool.toNat_le oe
    have := Bool.toNat_le rc; omega
  case divwu rd ra rb oe rc =>
    have := rd.isLt; have := ra.isLt; have := rb.isLt; have := Bool.toNat_le oe
    have := Bool.toNat_le rc; omega
  case mtspr rs spr =>
    have := rs.isLt; have := sprField_lt spr; omega
  case divd rd ra rb oe rc =>
    have := rd.isLt; have := ra.isLt; have := rb.isLt; have := Bool.toNat_le oe
    have := Bool.toNat_le rc; omega
  case divw rd ra rb oe rc =>
    have := rd.isLt; have := ra.isLt; have := rb.isLt; have := Bool.toNat_le oe
    have := Bool.toNat_le rc; omega
  case slbia => omega
  case mcrxr crfD =>
    have := crfD.isLt; omega
  case lswx rd ra rb =>
    have := rd.isLt; have := ra.isLt; have := rb.isLt; omega
  case mfsr rd sr =>
    have := rd.isLt; have := sr.isLt; omega
  case sync => omega
  case mfsrin rd rb =>
    have := rd.isLt; have := rb.isLt; omega
  case stswx rs ra rb =>
    have := rs.isLt; have := ra.isLt; have := rb.isLt; omega
  case lwz rd ra d =>
    have := rd.isLt; have := ra.isLt; have := d.isLt; omega
  case mtfsb1 crbD rc =>
    have := crbD.isLt; have := Bool.toNat_le rc; omega
  case mcrfs crfD crfS =>
    have := crfD.isLt; have := crfS.isLt; omega
  case mtfsb0 crbD rc =>
    have := crbD.isLt; have := Bool.toNat_le rc; omega
  case mtfsfi crfD imm rc =>
    have := crfD.isLt; have := imm.isLt; have := Bool.toNat_le rc; omega
  case mffs frd rc =>
    have := frd.isLt; have := Bool.toNat_le rc; omega
  case mtfsf fm frb rc =>
    have := fm.isLt; have := frb.isLt; have := Bool.toNat_le rc; omega

theorem encoding.twi (cond : BitVec 5) (ra : RegNum) (simm : BitVec 16)
    : encoding.Statement (.twi cond ra simm) := encodeNat_lt _

theorem encoding.cmpli (crfD : FieldNum) (l : Bool) (ra : RegNum) (uimm : BitVec 16)
    : encoding.Statement (.cmpli crfD l ra uimm) := encodeNat_lt _

theorem encoding.cmpi (crfD : FieldNum) (l : Bool) (ra : RegNum) (simm : BitVec 16)
    : encoding.Statement (.cmpi crfD l ra simm) := encodeNat_lt _

theorem encoding.addicDot (rd ra : RegNum) (simm : BitVec 16)
    : encoding.Statement (.addicDot rd ra simm) := encodeNat_lt _

theorem encoding.addi (rd ra : RegNum) (simm : BitVec 16)
    : encoding.Statement (.addi rd ra simm) := encodeNat_lt _

theorem encoding.bc (bo bi : BitVec 5) (bd : BitVec 14) (aa lk : Bool)
    : encoding.Statement (.bc bo bi bd aa lk) := encodeNat_lt _

theorem encoding.sc : encoding.Statement .sc := encodeNat_lt _

theorem encoding.b (li : BitVec 24) (aa lk : Bool)
    : encoding.Statement (.b li aa lk) := encodeNat_lt _

theorem encoding.mcrf (crfD crfS : FieldNum)
    : encoding.Statement (.mcrf crfD crfS) := encodeNat_lt _

theorem encoding.bclr (bo bi : BitVec 5) (lk : Bool)
    : encoding.Statement (.bclr bo bi lk) := encodeNat_lt _

theorem encoding.rfid : encoding.Statement .rfid := encodeNat_lt _

theorem encoding.crnor (crbD crbA crbB : RegNum)
    : encoding.Statement (.crnor crbD crbA crbB) := encodeNat_lt _

theorem encoding.rfi : encoding.Statement .rfi := encodeNat_lt _

theorem encoding.crandc (crbD crbA crbB : RegNum)
    : encoding.Statement (.crandc crbD crbA crbB) := encodeNat_lt _

theorem encoding.crxor (crbD crbA crbB : RegNum)
    : encoding.Statement (.crxor crbD crbA crbB) := encodeNat_lt _

theorem encoding.crnand (crbD crbA crbB : RegNum)
    : encoding.Statement (.crnand crbD crbA crbB) := encodeNat_lt _

theorem encoding.crand (crbD crbA crbB : RegNum)
    : encoding.Statement (.crand crbD crbA crbB) := encodeNat_lt _

theorem encoding.creqv (crbD crbA crbB : RegNum)
    : encoding.Statement (.creqv crbD crbA crbB) := encodeNat_lt _

theorem encoding.crorc (crbD crbA crbB : RegNum)
    : encoding.Statement (.crorc crbD crbA crbB) := encodeNat_lt _

theorem encoding.cror (crbD crbA crbB : RegNum)
    : encoding.Statement (.cror crbD crbA crbB) := encodeNat_lt _

theorem encoding.bcctr (bo bi : BitVec 5) (lk : Bool)
    : encoding.Statement (.bcctr bo bi lk) := encodeNat_lt _

theorem encoding.andiDot (rs ra : RegNum) (uimm : BitVec 16)
    : encoding.Statement (.andiDot rs ra uimm) := encodeNat_lt _

theorem encoding.andisDot (rs ra : RegNum) (uimm : BitVec 16)
    : encoding.Statement (.andisDot rs ra uimm) := encodeNat_lt _

theorem encoding.cmp (crfD : FieldNum) (l : Bool) (ra rb : RegNum)
    : encoding.Statement (.cmp crfD l ra rb) := encodeNat_lt _

theorem encoding.tw (cond : BitVec 5) (ra rb : RegNum)
    : encoding.Statement (.tw cond ra rb) := encodeNat_lt _

theorem encoding.subfc (rd ra rb : RegNum) (oe rc : Bool)
    : encoding.Statement (.subfc rd ra rb oe rc) := encodeNat_lt _

theorem encoding.mulhwu (rd ra rb : RegNum) (rc : Bool)
    : encoding.Statement (.mulhwu rd ra rb rc) := encodeNat_lt _

theorem encoding.mfcr (rd : RegNum) : encoding.Statement (.mfcr rd) := encodeNat_lt _

theorem encoding.cmpl (crfD : FieldNum) (l : Bool) (ra rb : RegNum)
    : encoding.Statement (.cmpl crfD l ra rb) := encodeNat_lt _

theorem encoding.mulhw (rd ra rb : RegNum) (rc : Bool)
    : encoding.Statement (.mulhw rd ra rb rc) := encodeNat_lt _

theorem encoding.mfmsr (rd : RegNum) : encoding.Statement (.mfmsr rd) := encodeNat_lt _

theorem encoding.mtcrf (rs : RegNum) (crm : BitVec 8)
    : encoding.Statement (.mtcrf rs crm) := encodeNat_lt _

theorem encoding.mtmsr (rs : RegNum) : encoding.Statement (.mtmsr rs) := encodeNat_lt _

theorem encoding.mtmsrd (rs : RegNum) : encoding.Statement (.mtmsrd rs) := encodeNat_lt _

theorem encoding.mtsr (rs : RegNum) (sr : BitVec 4)
    : encoding.Statement (.mtsr rs sr) := encodeNat_lt _

theorem encoding.mulld (rd ra rb : RegNum) (oe rc : Bool)
    : encoding.Statement (.mulld rd ra rb oe rc) := encodeNat_lt _

theorem encoding.mullw (rd ra rb : RegNum) (oe rc : Bool)
    : encoding.Statement (.mullw rd ra rb oe rc) := encodeNat_lt _

theorem encoding.mtsrin (rs rb : RegNum) : encoding.Statement (.mtsrin rs rb) := encodeNat_lt _

theorem encoding.tlbie (rb : RegNum) : encoding.Statement (.tlbie rb) := encodeNat_lt _

theorem encoding.eciwx (rd ra rb : RegNum) : encoding.Statement (.eciwx rd ra rb) := encodeNat_lt _

theorem encoding.mfspr (rd : RegNum) (spr : BitVec 10)
    : encoding.Statement (.mfspr rd spr) := encodeNat_lt _

theorem encoding.tlbia : encoding.Statement .tlbia := encodeNat_lt _

theorem encoding.mftb (rd : RegNum) (tbr : BitVec 10)
    : encoding.Statement (.mftb rd tbr) := encodeNat_lt _

theorem encoding.slbie (rb : RegNum) : encoding.Statement (.slbie rb) := encodeNat_lt _

theorem encoding.ecowx (rs ra rb : RegNum) : encoding.Statement (.ecowx rs ra rb) := encodeNat_lt _

theorem encoding.divdu (rd ra rb : RegNum) (oe rc : Bool)
    : encoding.Statement (.divdu rd ra rb oe rc) := encodeNat_lt _

theorem encoding.divwu (rd ra rb : RegNum) (oe rc : Bool)
    : encoding.Statement (.divwu rd ra rb oe rc) := encodeNat_lt _

theorem encoding.mtspr (rs : RegNum) (spr : BitVec 10)
    : encoding.Statement (.mtspr rs spr) := encodeNat_lt _

theorem encoding.divd (rd ra rb : RegNum) (oe rc : Bool)
    : encoding.Statement (.divd rd ra rb oe rc) := encodeNat_lt _

theorem encoding.divw (rd ra rb : RegNum) (oe rc : Bool)
    : encoding.Statement (.divw rd ra rb oe rc) := encodeNat_lt _

theorem encoding.slbia : encoding.Statement .slbia := encodeNat_lt _

theorem encoding.mcrxr (crfD : FieldNum) : encoding.Statement (.mcrxr crfD) := encodeNat_lt _

theorem encoding.lswx (rd ra rb : RegNum) : encoding.Statement (.lswx rd ra rb) := encodeNat_lt _

theorem encoding.mfsr (rd : RegNum) (sr : BitVec 4)
    : encoding.Statement (.mfsr rd sr) := encodeNat_lt _

theorem encoding.sync : encoding.Statement .sync := encodeNat_lt _

theorem encoding.mfsrin (rd rb : RegNum) : encoding.Statement (.mfsrin rd rb) := encodeNat_lt _

theorem encoding.stswx (rs ra rb : RegNum) : encoding.Statement (.stswx rs ra rb) := encodeNat_lt _

theorem encoding.lwz (rd ra : RegNum) (d : BitVec 16)
    : encoding.Statement (.lwz rd ra d) := encodeNat_lt _

theorem encoding.mtfsb1 (crbD : RegNum) (rc : Bool)
    : encoding.Statement (.mtfsb1 crbD rc) := encodeNat_lt _

theorem encoding.mcrfs (crfD crfS : FieldNum)
    : encoding.Statement (.mcrfs crfD crfS) := encodeNat_lt _

theorem encoding.mtfsb0 (crbD : RegNum) (rc : Bool)
    : encoding.Statement (.mtfsb0 crbD rc) := encodeNat_lt _

theorem encoding.mtfsfi (crfD : FieldNum) (imm : BitVec 4) (rc : Bool)
    : encoding.Statement (.mtfsfi crfD imm rc) := encodeNat_lt _

theorem encoding.mffs (frd : RegNum) (rc : Bool)
    : encoding.Statement (.mffs frd rc) := encodeNat_lt _

theorem encoding.mtfsf (fm : BitVec 8) (frb : RegNum) (rc : Bool)
    : encoding.Statement (.mtfsf fm frb rc) := encodeNat_lt _

end Sys2Proof.Laws
end

