-- ==== Sys2Proof/Tests/Slice0.lean ====
section
/-! SUPPORT. Tests: well-formedness, decoding of words written from the encodings of R220, one step
of each instruction, and one witness for each statement that has hypotheses. Expected values are
those of the examples in the rules and of 95_test_vectors.md (V numbers, S numbers). -/

-- One theorem after another: a hundred at once take more threads than the memory limit allows.
set_option Elab.async false

namespace Sys2Proof.Tests

open Machine Statements

/-! ## Helpers -/

/-- The smallest 32-bit machine, in supervisor state, at 0x1000. -/
def m32 : State := { State.resetOf Config.minimal32 with msr := 0, pc := 0x1000 }

/-- The same at user level. -/
def u32 : State := { m32 with msr := 0x4000 }

/-- A 64-bit machine in 64-bit mode with the bridge and every unit, at 0x1000. -/
def m64 : State := { State.resetOf Config.atReset with msr := 0x8000000000000000, pc := 0x1000 }

/-- A 32-bit machine with DABR and EAR, misaligned accesses trapped. -/
def mExt : State :=
  { m32 with cfg := { Config.minimal32 with hasDabr := true, hasEar := true, alignment := .trap } }

/-- The machine with floating point available. -/
def fp32 (fpscr : Word) : State := { m32 with msr := 0x2000, fpscr := fpscr }

/-- `s` with general registers set. -/
def regs (s : State) (l : List (RegNum × DWord)) : State :=
  l.foldl (fun s p => { s with gpr := s.gpr.set p.1.toNat p.2 p.1.isLt }) s

/-- `s` with the bytes `l` stored from address `a` on. -/
def bytes (s : State) (a : Nat) (l : List Byte) : State :=
  { s with mem := (l.zipIdx a).foldl (fun m p => Memory.write m p.2 p.1) s.mem }

/-- The state is next and satisfies `p`. -/
def nextIs (r : Result) (p : State → Bool) : Bool :=
  match r with
  | .next t => p t
  | .fault _ => false
  | .refused _ => false

/-- The word decodes, and executing it at `s` gives a next state that satisfies `p`. -/
def after (w : Word) (s : State) (p : State → Bool) : Bool :=
  match decode w with
  | .ok i => nextIs (exec i s) p
  | .error _ => false

/-- The outcome is the refusal `e`. -/
def refusedBy (r : Result) (e : Refusal) : Bool :=
  match r with
  | .refused f => f == e
  | .next _ => false
  | .fault _ => false

/-- The word decodes to the instruction and is its encoding. -/
def codes (w : Word) (i : Instr) : Bool :=
  (match decode w with
    | .ok j => j == i
    | .error _ => false) && encode i == w

/-- The word is no instruction. -/
def noInstr (w : Word) : Bool :=
  match decode w with
  | .ok _ => false
  | .error _ => true

/-! ## Well-formedness -/

theorem test_wf_bcctr_decrement : (Instr.bcctr 16 0 false).wellFormed = false := by decide
theorem test_wf_lswx_target_is_base : (Instr.lswx 4 4 5).wellFormed = false := by decide
theorem test_wf_lswx_target_is_index : (Instr.lswx 5 4 5).wellFormed = false := by decide
theorem test_wf_good :
    (Instr.bcctr 20 0 false).wellFormed = true ∧ (Instr.lswx 5 0 4).wellFormed = true := by decide

/-! ## Decoding: every row of R220 -/

theorem test_rows_disjoint :
    (opcodeTable.Pairwise fun r q => r.overlaps q = false) ∧ opcodeTable.length = 64 := by
  decide +kernel

/-- D formats and the branches (R211, R220; V44, V47, V141, V214, V217, V221, V223). -/
theorem test_decode_immediate :
    codes 0x0C83000A (.twi 4 3 10) ∧ codes 0x2803FFFF (.cmpli 0 false 3 0xFFFF) ∧
    codes 0x2C83FFFB (.cmpi 1 false 3 0xFFFB) ∧ codes 0x34640001 (.addicDot 3 4 1) ∧
    codes 0x3864FFFF (.addi 3 4 0xFFFF) ∧ codes 0x4200FFF8 (.bc 16 0 0x3FFE false false) ∧
    codes 0x44000002 .sc ∧ codes 0x4BFFF000 (.b 0xFFFC00 false false) ∧
    codes 0x48000102 (.b 0x40 true false) ∧ codes 0x48000021 (.b 8 false true) ∧
    codes 0x70A600F0 (.andiDot 5 6 0xF0) ∧ codes 0x74A68000 (.andisDot 5 6 0x8000) ∧
    codes 0x80640008 (.lwz 3 4 8) := by decide +kernel

/-- Primary opcode 19 (V45, V46, V83, V86 to V88, V148). -/
theorem test_decode_19 :
    codes 0x4D9C0000 (.mcrf 3 7) ∧ codes 0x4E800020 (.bclr 20 0 false) ∧
    codes 0x4E800021 (.bclr 20 0 true) ∧ codes 0x4C000024 .rfid ∧ codes 0x4C000064 .rfi ∧
    codes 0x4C221842 (.crnor 1 2 3) ∧ codes 0x4C221902 (.crandc 1 2 3) ∧
    codes 0x4C000182 (.crxor 0 0 0) ∧ codes 0x4C2219C2 (.crnand 1 2 3) ∧
    codes 0x4C221A02 (.crand 1 2 3) ∧ codes 0x4C000242 (.creqv 0 0 0) ∧
    codes 0x4C221B42 (.crorc 1 2 3) ∧ codes 0x4FE10B82 (.cror 31 1 1) ∧
    codes 0x4E800420 (.bcctr 20 0 false) := by decide +kernel

/-- Primary opcode 31, arithmetic, compares and traps (V96 to V114, V213, V219, V222). -/
theorem test_decode_31_arith :
    codes 0x7C051800 (.cmp 0 false 5 3) ∧ codes 0x7C832008 (.tw 4 3 4) ∧
    codes 0x7C642810 (.subfc 3 4 5 false false) ∧ codes 0x7C642816 (.mulhwu 3 4 5 false) ∧
    codes 0x7CC00026 (.mfcr 6) ∧ codes 0x7C032040 (.cmpl 0 false 3 4) ∧
    codes 0x7C232000 (.cmp 0 true 3 4) ∧ codes 0x7C642896 (.mulhw 3 4 5 false) ∧
    codes 0x7C681120 (.mtcrf 3 0x81) ∧ codes 0x7C642DD2 (.mulld 3 4 5 true false) ∧
    codes 0x7C642DD7 (.mullw 3 4 5 true true) ∧ codes 0x7C642B92 (.divdu 3 4 5 false false) ∧
    codes 0x7C642F96 (.divwu 3 4 5 true false) ∧ codes 0x7C642FD2 (.divd 3 4 5 true false) ∧
    codes 0x7C642FD7 (.divw 3 4 5 true true) ∧ codes 0x7D000400 (.mcrxr 2) := by decide +kernel

/-- Primary opcode 31, system and storage (V40 to V43, V48, V180 to V212). -/
theorem test_decode_31_system :
    codes 0x7C6000A6 (.mfmsr 3) ∧ codes 0x7C600124 (.mtmsr 3) ∧ codes 0x7C600164 (.mtmsrd 3) ∧
    codes 0x7C8501A4 (.mtsr 4 5) ∧ codes 0x7C8031E4 (.mtsrin 4 6) ∧ codes 0x7C002264 (.tlbie 4) ∧
    codes 0x7C60226C (.eciwx 3 0 4) ∧ codes 0x7CA802A6 (.mfspr 5 8) ∧ codes 0x7C0002E4 .tlbia ∧
    codes 0x7C6C42E6 (.mftb 3 268) ∧ codes 0x7C6D42E6 (.mftb 3 269) ∧
    codes 0x7C002364 (.slbie 4) ∧ codes 0x7C60236C (.ecowx 3 0 4) ∧
    codes 0x7C8103A6 (.mtspr 4 1) ∧ codes 0x7C7C43A6 (.mtspr 3 284) ∧
    codes 0x7C7043A6 (.mtspr 3 272) ∧ codes 0x7C0003E4 .slbia ∧ codes 0x7CA0242A (.lswx 5 0 4) ∧
    codes 0x7C6504A6 (.mfsr 3 5) ∧ codes 0x7C0004AC .sync ∧ codes 0x7C603526 (.mfsrin 3 6) ∧
    codes 0x7CA0352A (.stswx 5 0 6) := by decide +kernel

/-- Primary opcode 63 (V120 to V134). -/
theorem test_decode_63 :
    codes 0xFEA0004C (.mtfsb1 21 false) ∧ codes 0xFC800080 (.mcrfs 1 0) ∧
    codes 0xFCC0008C (.mtfsb0 6 false) ∧ codes 0xFF80110C (.mtfsfi 7 1 false) ∧
    codes 0xFC40048E (.mffs 2 false) ∧ codes 0xFDFE0D8E (.mtfsf 0xFF 1 false) := by decide +kernel

/-- Words of no row: a reserved bit set, primary opcode 0 (V48, V49). -/
theorem test_decode_refused :
    noInstr 0x7C0004AD ∧ noInstr 0 ∧ noInstr 0x44000000 ∧ noInstr 0x4C000065 := by
  decide +kernel

/-! ## Integer arithmetic -/

theorem test_addi_wraps : after 0x3864FFFF m32 (fun t => t.getGpr 3 == 0xFFFFFFFF) = true := by
  decide +kernel
theorem test_addi_zero_base :
    after 0x38A00000 (regs m32 [(0, 0xDEADBEEF)]) (fun t => t.getGpr 5 == 0 && t.pc == 0x1004)
      = true := by decide +kernel
theorem test_addic_carry :
    after 0x34640001 (regs m32 [(4, 0xFFFFFFFF)])
      (fun t => t.getGpr 3 == 0 && t.ca && t.cr == 0x20000000) = true := by decide +kernel
theorem test_addic_no_carry :
    after 0x3484FFFF { m32 with xer := 0x80000000 }
      (fun t => t.getGpr 4 == 0xFFFFFFFF && t.xer == 0x80000000 && t.cr == 0x90000000) = true := by
  decide +kernel
theorem test_andi :
    after 0x70A600F0 { regs m32 [(5, 0xFF0F)] with xer := 0x80000000 }
      (fun t => t.getGpr 6 == 0 && t.cr == 0x30000000) = true := by decide +kernel
theorem test_andis :
    after 0x74A68000 (regs m32 [(5, 0x80000001)])
      (fun t => t.getGpr 6 == 0x80000000 && t.cr == 0x80000000) = true := by decide +kernel
theorem test_record_width :
    nextIs (exec (.addicDot 3 4 0) (regs m64 [(4, 0x100000000)])) (fun t => t.cr == 0x40000000) ∧
    nextIs (exec (.addicDot 3 4 0) { regs m64 [(4, 0x100000000)] with msr := 0 })
      (fun t => t.cr == 0x20000000) := by decide +kernel
theorem test_subfc_borrow :
    after 0x7C642810 (regs m32 [(4, 5), (5, 3)]) (fun t => t.getGpr 3 == 0xFFFFFFFE && !t.ca)
      = true := by decide +kernel
theorem test_subfc_equal :
    after 0x7C642810 (regs m32 [(4, 7), (5, 7)]) (fun t => t.getGpr 3 == 0 && t.ca) = true := by
  decide +kernel
theorem test_mulhw :
    after 0x7C642896 (regs m32 [(4, 0xFFFFFFFF), (5, 2)]) (fun t => t.getGpr 3 == 0xFFFFFFFF)
      = true := by decide +kernel
theorem test_mulhwu :
    after 0x7C642816 (regs m32 [(4, 0xFFFFFFFF), (5, 2)]) (fun t => t.getGpr 3 == 1) = true := by
  decide +kernel
theorem test_mullw_overflow :
    after 0x7C642DD7 (regs m32 [(4, 0x10000), (5, 0x10000)])
      (fun t => t.getGpr 3 == 0 && t.xer == 0xC0000000 && t.cr == 0x30000000) = true := by
  decide +kernel
theorem test_mullw_fits :
    after 0x7C642DD6 { regs m32 [(4, 0xFFFFFFFF), (5, 0xFFFFFFFF)] with xer := 0xC0000000 }
      (fun t => t.getGpr 3 == 1 && t.xer == 0x80000000) = true := by decide +kernel
theorem test_mulld_overflow :
    after 0x7C642DD2 (regs m64 [(4, 0x100000000), (5, 0x100000000)])
      (fun t => t.getGpr 3 == 0 && t.xer == 0xC0000000) = true := by decide +kernel
theorem test_divw_truncates :
    after 0x7C642FD7 (regs m32 [(4, 0xFFFFFFF9), (5, 2)])
      (fun t => t.getGpr 3 == 0xFFFFFFFD && t.xer == 0 && t.cr == 0x80000000) = true := by
  decide +kernel
theorem test_divw_unrepresentable :
    after 0x7C642FD6 (regs m32 [(4, 0x80000000), (5, 0xFFFFFFFF)]) (fun t => t.xer == 0xC0000000) ∧
    after 0x7C642BD6 (regs m32 [(4, 7)]) (fun t => t.xer == 0 && t.pc == 0x1004) := by
  decide +kernel
theorem test_divwu_by_zero :
    after 0x7C642F96 (regs m32 [(4, 7)]) (fun t => t.xer == 0xC0000000) = true := by decide +kernel
theorem test_divd_unrepresentable :
    after 0x7C642FD2 (regs m64 [(4, 0x8000000000000000), (5, 0xFFFFFFFFFFFFFFFF)])
      (fun t => t.xer == 0xC0000000) = true := by decide +kernel
theorem test_divdu :
    after 0x7C642B92 (regs m64 [(4, 10), (5, 3)]) (fun t => t.getGpr 3 == 3 && t.xer == 0) = true := by
  decide +kernel

/-! ## Compares and traps -/

theorem test_cmp_equal :
    after 0x7C051800 (regs m32 [(3, 1), (5, 1)]) (fun t => t.cr == 0x20000000) = true := by
  decide +kernel
theorem test_cmp_summary :
    after 0x7C051800 { regs m32 [(3, 1), (5, 2)] with xer := 0x80000000 }
      (fun t => t.cr == 0x50000000) = true := by decide +kernel
theorem test_cmpi :
    after 0x2C83FFFB (regs m32 [(3, 0xFFFFFFF0)]) (fun t => t.cr == 0x08000000) = true := by
  decide +kernel
theorem test_cmpl :
    after 0x7C032040 (regs m32 [(3, 0xFFFFFFF0), (4, 1)]) (fun t => t.cr == 0x40000000) = true := by
  decide +kernel
theorem test_cmpli :
    after 0x2803FFFF (regs m32 [(3, 0xFFFF)]) (fun t => t.cr == 0x20000000) = true := by
  decide +kernel
theorem test_tw :
    after 0x7E032008 (regs u32 [(3, 0xFFFFFFFF), (4, 1)])
      (fun t => t.srr0 == 0x1000 && t.srr1 == 0x24000 && t.pc == 0x700) ∧
    nextIs (exec (.tw 2 3 4) (regs u32 [(3, 0xFFFFFFFF), (4, 1)])) (fun t => t.pc == 0x1004) := by
  decide +kernel
theorem test_twi :
    after 0x0C83000A (regs m32 [(3, 11)]) (fun t => t.pc == 0x1004) ∧
    after 0x0FE00000 m32 (fun t => t.pc == 0x700 && t.srr1 == 0x20000) := by decide +kernel

/-! ## Condition register -/

theorem test_mtcrf :
    after 0x7C681120 { regs m32 [(3, 0x12345678)] with cr := 0xFFFFFFFF }
      (fun t => t.cr == 0x1FFFFFF8) = true := by decide +kernel
theorem test_mcrf :
    after 0x4D9C0000 { m32 with cr := 0x20000008 } (fun t => t.cr == 0x20080008) = true := by
  decide +kernel
theorem test_mcrxr :
    after 0x7D000400 { m32 with xer := 0xA0000005 }
      (fun t => t.cr == 0x00A00000 && t.xer == 5) = true := by decide +kernel
theorem test_mfcr :
    after 0x7CC00026 { m64 with cr := 0x20000008 } (fun t => t.getGpr 6 == 0x20000008) = true := by
  decide +kernel

/-- One CR logical instruction on bits 1, 1 then 1, 0 into bit 31 (R274). -/
def crTest (make : RegNum → RegNum → RegNum → Instr) (r11 r10 : Bool) : Bool :=
  nextIs (exec (make 31 1 1) { m32 with cr := 0x40000000 })
      (fun t => t.cr == if r11 then 0x40000001 else 0x40000000) &&
    nextIs (exec (make 31 1 2) { m32 with cr := 0x40000001 })
      (fun t => t.cr == if r10 then 0x40000001 else 0x40000000)

theorem test_crand : crTest .crand true false = true := by decide +kernel
theorem test_cror : crTest .cror true true = true := by decide +kernel
theorem test_crxor : crTest .crxor false true = true := by decide +kernel
theorem test_crnand : crTest .crnand false true = true := by decide +kernel
theorem test_crnor : crTest .crnor false false = true := by decide +kernel
theorem test_creqv : crTest .creqv true false = true := by decide +kernel
theorem test_crandc : crTest .crandc false true = true := by decide +kernel
theorem test_crorc : crTest .crorc true true = true := by decide +kernel

/-! ## FPSCR -/

theorem test_mcrfs_clears :
    after 0xFC800080 (fp32 0x90000000)
      (fun t => t.cr == 0x09000000 && t.fpscrNow == 0) = true := by decide +kernel
theorem test_mcrfs_computed :
    after 0xFC000080 (fp32 0x80000480)
      (fun t => t.cr == 0xE0000000 && t.fpscrNow == 0x60000480) = true := by decide +kernel
theorem test_mtfsfi :
    after 0xFF80110C (fp32 0) (fun t => t.fpscrNow == 1) ∧
    after 0xFC00F10C (fp32 0) (fun t => t.fpscrNow == 0x90000000) := by decide +kernel
theorem test_mtfsf :
    after 0xFDFE0D8E { fp32 0 with fpr := (fp32 0).fpr.set 1 0xF8 }
      (fun t => t.fpscrNow == 0xF8) = true := by decide +kernel
/-- R59: a move that writes FI and not XX accumulates it in XX, and `mtfsb1` counts it for FX; one
that writes both leaves what it writes. -/
theorem test_fpscr_fi :
    after 0xFD80210C (fp32 0) (fun t => t.fpscrNow == 0x02020000) ∧
    after 0xFD80010C (fp32 0x02020000) (fun t => t.fpscrNow == 0x02000000) ∧
    after 0xFDC0004C (fp32 0) (fun t => t.fpscrNow == 0x82020000) ∧
    after 0xFC200D8E { fp32 0 with fpr := (fp32 0).fpr.set 1 0x20000 }
      (fun t => t.fpscrNow == 0x02020000) ∧
    after 0xFDFE0D8E { fp32 0x02000000 with fpr := (fp32 0).fpr.set 1 0x20000 }
      (fun t => t.fpscrNow == 0x00020000) := by decide +kernel
theorem test_mtfsb0 :
    after 0xFCC0008C (fp32 0x82000000) (fun t => t.fpscrNow == 0x80000000) ∧
    after 0xFC20008C (fp32 0x80000480) (fun t => t.fpscrNow == 0xE0000480) := by decide +kernel
theorem test_mtfsb1 :
    after 0xFEA0004C (fp32 0x80) (fun t => t.fpscrNow == 0xE0000480) ∧
    after 0xFF00004C (fp32 0) (fun t => t.fpscrNow == 0x80) := by decide +kernel
theorem test_mffs : ∃ t, exec (.mffs 2 false) (fp32 0xF8) = .next t ∧ lo32 (t.getFpr 2) = 0xF8 :=
  ⟨_, rfl, lo32_joinWords (Config.freeFprHigh 0) 0xF8⟩
theorem test_fp_unavailable :
    after 0xFC40048E m32 (fun t => t.pc == 0x800 && t.srr0 == 0x1000 && t.fpr == m32.fpr) = true := by
  decide +kernel
theorem test_fp_enabled :
    after 0xFF00004C { fp32 0x400 with msr := 0x2900, pc := 0x3000 }
      (fun t => t.pc == 0x700 && t.srr0 == 0x3000 && t.srr1 == 0x102900 && t.msr == 0 &&
        t.fpscrNow == 0x60000480) = true := by decide +kernel

/-- The template of R308: an inexact sum sets FI, XX, FX and FPRF (here +normalized) and writes the
target and CR1; an enabled zero divide leaves the target and takes the exception. -/
theorem test_fp_arith :
    nextIs ((fp32 0).fpArith 3 true ⟨7, false, true, some .posNormalized, 0⟩)
      (fun t => t.fpscrNow == 0x82024000 && t.getFpr 3 == 7 && t.cr == 0x08000000 &&
        t.pc == 0x1004) ∧
    nextIs (({ fp32 0x10 with msr := 0x2900 }).fpArith 3 false
        ⟨7, false, false, some .posInfinity, 0x04000000⟩)
      (fun t => t.fpscrNow == 0xC4005010 && t.getFpr 3 == 0 && t.pc == 0x700) := by decide +kernel

/-- Neither template sets VXSOFT, a compare only VXSNAN and VXVC; moves set it, for VX and FEX (R73,
R309). -/
theorem test_fp_vxsoft :
    nextIs ((fp32 0).fpArith 3 false ⟨7, false, false, some .posNormalized, 0x00000400⟩)
      (fun t => t.fpscrNow == 0x00004000) ∧
    fpSuppressed 0x80 0x00000400 = false ∧
    nextIs ((fp32 0).fpCompare 6 0 1 0x1FF80700) (fun t => t.fpscrNow == 0xA1082000) ∧
    after 0xFEA0004C (fp32 0x80) (fun t => t.fpscrNow == 0xE0000480) := by decide +kernel

/-- With NI = 1 floating-point arithmetic does what NI_EFFECTS says (R81, D10); moves copy the bit. -/
theorem test_fp_ni :
    refusedBy ((fp32 4).fpArith 3 false ⟨7, false, false, some .posNormalized, 0⟩) .nonIeeeMode ∧
    refusedBy ((fp32 4).fpCompare 6 0 1 0) .nonIeeeMode ∧
    nextIs ({ fp32 4 with cfg := { Config.minimal32 with niEffects := .conform } }.fpArith 3 false
        ⟨7, false, false, some .posNormalized, 0⟩) (fun t => t.getFpr 3 == 7) ∧
    after 0xFF80410C (fp32 0) (fun t => t.fpscrNow == 4) := by decide +kernel

/-- The template of R309 on 1.0 and 2.0, on the two zeros and on a NaN. -/
theorem test_fp_compare :
    nextIs (((fp32 0x00018000).setFpr 0 0x3FF0000000000000 |>.setFpr 1 0x4000000000000000).fpCompare
        6 0 1 0)
      (fun t => t.cr == 0x00000080 && t.fpscrNow == 0x00018000) ∧
    fpRelation 0xC000000000000000 0xBFF0000000000000 = .less ∧
    fpRelation 0x3FF0000000000000 0xBFF0000000000000 = .greater ∧
    fpRelation 0x8000000000000000 0 = .equal ∧
    fpRelation 0x7FF0000000000001 0 = .unordered ∧
    fpRelation 0x7FF0000000000000 0x7FEFFFFFFFFFFFFF = .greater := by decide +kernel

/-! ## Branches -/

theorem test_b_link :
    after 0x48000021 m32 (fun t => t.lr == 0x1004 && t.pc == 0x1020) = true := by decide +kernel
theorem test_b_absolute :
    after 0x48000102 m32 (fun t => t.pc == 0x100) ∧ after 0x4BFFF000 m32 (fun t => t.pc == 0) := by
  decide +kernel
theorem test_bc_loop :
    after 0x4200FFF8 { m32 with ctr := 2, pc := 0x2008 } (fun t => t.ctr == 1 && t.pc == 0x2000) ∧
    after 0x4200FFF8 { m32 with ctr := 1, pc := 0x2008 } (fun t => t.ctr == 0 && t.pc == 0x200C) := by
  decide +kernel
theorem test_bc_wraps :
    after 0x4200FFF8 { m32 with pc := 0x2008 } (fun t => t.ctr == 0xFFFFFFFF && t.pc == 0x2000) ∧
    after 0x4200FFF8 { m64 with msr := 0, ctr := 0x100000000, pc := 0x2008 }
      (fun t => t.ctr == 0xFFFFFFFF && t.pc == 0x2000) := by decide +kernel
theorem test_bclr_link :
    after 0x4E800021 { m32 with lr := 0x1007, pc := 0x5024 }
      (fun t => t.pc == 0x1004 && t.lr == 0x5028) = true := by decide +kernel
theorem test_bcctr :
    after 0x4E800420 { m32 with ctr := 0x3000 } (fun t => t.pc == 0x3000 && t.ctr == 0x3000)
      = true := by decide +kernel

/-! ## Special-purpose registers, time base, decrementer -/

theorem test_mtspr_xer :
    after 0x7C8103A6 { regs u32 [(4, 0x40000000)] with xer := 0xC0000000 }
      (fun t => t.xer == 0x40000000) = true := by decide +kernel
theorem test_mtspr_dec :
    after 0x7CF603A6 { regs m32 [(7, 0xFFFFFFFF)] with dec := 5 }
      (fun t => t.dec == 0xFFFFFFFF && t.decRequest) ∧
    after 0x7CF603A6 { regs m32 [(7, 0xFFFFFFFF)] with dec := 0x80000000 }
      (fun t => t.dec == 0xFFFFFFFF && !t.decRequest) := by decide +kernel
theorem test_mfspr_lr :
    after 0x7CA802A6 { u32 with lr := 0x1234 } (fun t => t.getGpr 5 == 0x1234) = true := by
  decide +kernel
theorem test_mfspr_privileged :
    after 0x7C7A02A6 u32
      (fun t => t.srr1 == 0x44000 && t.srr0 == 0x1000 && t.pc == 0x700 && t.gpr == u32.gpr)
      = true := by decide +kernel
theorem test_mftb :
    after 0x7C6C42E6 { u32 with tbu := 1, tbl := 0xFFFFFFFE } (fun t => t.getGpr 3 == 0xFFFFFFFE) ∧
    after 0x7C6C42E6 { m64 with tbu := 1, tbl := 0xFFFFFFFE }
      (fun t => t.getGpr 3 == 0x1FFFFFFFE) := by decide +kernel
theorem test_mftb_upper :
    after 0x7C6D42E6 { m64 with tbu := 1, tbl := 0xFFFFFFFE } (fun t => t.getGpr 3 == 1) = true := by
  decide +kernel
theorem test_tick_wraps :
    (State.ticks 1 { m32 with tbu := 0xFFFFFFFF, tbl := 0xFFFFFFFF }).timeBase = 0 ∧
    (State.ticks 1 { m32 with tbu := 1, tbl := 0xFFFFFFFF }).timeBase = 0x200000000 := by
  decide +kernel
theorem test_dec_request :
    (State.ticks 2 { m32 with dec := 2 }).decRequest = false ∧
    (State.ticks 3 { m32 with dec := 2 }).decRequest = true ∧
    (State.ticks 3 { m32 with dec := 2 }).dec = 0xFFFFFFFF ∧
    (State.ticks 1 { m32 with dec := 0x80000000 }).decRequest = false := by decide +kernel

/-! ## MSR, system linkage, segment registers -/

theorem test_mtmsr :
    after 0x7C600124 { regs m32 [(3, 0x8040)] with msr := 0x40 } (fun t => t.msr == 0x8040) ∧
    after 0x7C600124 { regs m64 [(3, 0xFFFFFFFF00008040)] with msr := 0xA000000000000040 }
      (fun t => t.msr == 0xA000000000008040) := by decide +kernel
theorem test_mtmsrd :
    after 0x7C600164 { regs m64 [(3, 0x8000000000008040)] with msr := 0xA000000000000040 }
      (fun t => t.msr == 0x8000000000008040) = true := by decide +kernel
theorem test_mtmsrd_illegal :
    after 0x7C600164 m32 (fun t => t.srr1 == 0x80000 && t.pc == 0x700) = true := by decide +kernel
theorem test_mfmsr :
    after 0x7C6000A6 { m32 with msr := 0x1032 } (fun t => t.getGpr 3 == 0x1032) ∧
    after 0x7C6000A6 u32 (fun t => t.srr1 == 0x44000 && t.gpr == u32.gpr) := by decide +kernel
theorem test_sc :
    after 0x44000002 { m32 with msr := 0xD032, pc := 0x2000 }
      (fun t => t.srr0 == 0x2004 && t.srr1 == 0xD032 && t.msr == 0x1000 && t.pc == 0xC00) ∧
    after 0x44000002 { m32 with msr := 0xD072 }
      (fun t => t.msr == 0x1040 && t.pc == 0xFFF00C00) := by decide +kernel
theorem test_sc_64 :
    after 0x44000002
      { m64 with cfg := { Config.atReset with hasBridge := false }, msr := 0x800000000000D032,
                 pc := 0x100002000 }
      (fun t => t.srr0 == 0x100002004 && t.srr1 == 0x800000000000D032 &&
        t.msr == 0x8000000000001000) ∧
    after 0x44000002 { m64 with msr := 0x200000000000D032, pc := 0x2000 }
      (fun t => t.srr1 == 0x200000000000D032 && t.msr == 0xA000000000001000) := by decide +kernel
theorem test_rfi :
    after 0x4C000064 { m32 with msr := 0x1000, srr0 := 0x2007, srr1 := 0xD032 }
      (fun t => t.msr == 0xD032 && t.pc == 0x2004) ∧
    after 0x4C000064 { m32 with msr := 0x11001, srr0 := 0x3000, srr1 := 0xB032 }
      (fun t => t.msr == 0x1B032) := by decide +kernel
theorem test_rfid :
    after 0x4C000024 { m64 with msr := 0x8000000000001000, srr0 := 0x100002004, srr1 := 0xD032 }
      (fun t => t.msr == 0xD032 && t.pc == 0x2004) = true := by decide +kernel
theorem test_rfi_absent :
    after 0x4C000064 { m64 with cfg := { Config.atReset with hasBridge := false } }
      (fun t => t.srr1 == 0x8000000000080000) = true := by decide +kernel
theorem test_mtsr :
    after 0x7C8501A4 (regs m32 [(4, 0x20123456)]) (fun t => t.getSr 5 == 0x20123456) = true := by
  decide +kernel
theorem test_mtsrin :
    after 0x7C8031E4 (regs m32 [(6, 0x50000000), (4, 0x777)]) (fun t => t.getSr 5 == 0x777)
      = true := by decide +kernel
theorem test_mfsr :
    after 0x7C6504A6 (m32.setSr 5 0x20123456) (fun t => t.getGpr 3 == 0x20123456) = true := by
  decide +kernel
theorem test_mfsrin :
    after 0x7C603526 (regs (m32.setSr 5 0x20123456) [(6, 0x5FFFFFFF)])
      (fun t => t.getGpr 3 == 0x20123456) = true := by decide +kernel
theorem test_mfsr_bridge :
    after 0x7C6504A6 (m64.setSr 5 0x2F123456) (fun t => t.getGpr 3 == 0x2F123456) = true := by
  decide +kernel

/-! ## Storage, external control, synchronization -/

theorem test_lwz :
    after 0x80640008 (bytes (regs m32 [(4, 0x1000)]) 0x1008 [0x12, 0x34, 0x56, 0x78])
      (fun t => t.getGpr 3 == 0x12345678) = true := by decide +kernel
theorem test_lwz_mode32 :
    after 0x80640008 (bytes (regs { m64 with msr := 0 } [(4, 0x100001000)]) 0x1008 [0, 0, 0, 7])
      (fun t => t.getGpr 3 == 7) = true := by decide +kernel
theorem test_lswx :
    after 0x7CA0242A
      (bytes { regs m32 [(4, 0x1000), (7, 9)] with xer := 5 } 0x1000 [0x11, 0x22, 0x33, 0x44, 0x55])
      (fun t => t.getGpr 5 == 0x11223344 && t.getGpr 6 == 0x55000000 && t.getGpr 7 == 9) = true := by
  decide +kernel
theorem test_lswx_wraps :
    after 0x7FE0242A (bytes { regs m32 [(4, 0x1000)] with xer := 8 } 0x1000 [1, 2, 3, 4, 5, 6, 7, 8])
      (fun t => t.getGpr 31 == 0x01020304 && t.getGpr 0 == 0x05060708) = true := by decide +kernel
theorem test_stswx :
    after 0x7CA0352A { regs m32 [(5, 0xAABBCCDD), (6, 0x2000)] with xer := 3 }
      (fun t => t.mem == [(0x2000, 0xAA), (0x2001, 0xBB), (0x2002, 0xCC)]) = true := by decide +kernel
theorem test_stswx_breakpoint :
    after 0x7CA0352A { regs mExt [(6, 0xFFE)] with xer := 3, dabr := 0x1003 }
      (fun t => t.dsisr == 0x02400000 && t.dar == 0xFFE && t.mem == [] && t.pc == 0x300) = true := by
  decide +kernel
theorem test_eciwx :
    after 0x7C60226C { regs mExt [(4, 0x4000)] with ear := 0x80000003, extReplies := [77] }
      (fun t => t.getGpr 3 == 77 && t.extSent == [⟨3, 0x4000, none⟩] && t.extReplies == []) ∧
    after 0x7C60226C { regs mExt [(4, 0x4000)] with ear := 3 }
      (fun t => t.dsisr == 0x00100000 && t.dar == 0x4000 && t.gpr == (regs mExt [(4, 0x4000)]).gpr) := by
  decide +kernel
theorem test_ecowx :
    after 0x7C60236C { regs mExt [(4, 0x4000), (3, 0xCAFE0001)] with ear := 0x80000003 }
      (fun t => t.extSent == [⟨3, 0x4000, some 0xCAFE0001⟩]) ∧
    after 0x7C60236C { regs mExt [(4, 0x4000)] with ear := 3 }
      (fun t => t.dsisr == 0x02100000 && t.dar == 0x4000 && t.extSent == []) := by decide +kernel
theorem test_sync : after 0x7C0004AC u32 (fun t => t == { u32 with pc := 0x1004 }) = true := by
  decide +kernel
theorem test_lookaside :
    after 0x7C002264 m32 (fun t => t.pc == 0x1004) ∧ after 0x7C0002E4 m32 (fun t => t.pc == 0x1004) ∧
    after 0x7C002364 m64 (fun t => t.pc == 0x1004) ∧ after 0x7C0003E4 m64 (fun t => t.pc == 0x1004) ∧
    after 0x7C002364 m32 (fun t => t.srr1 == 0x80000) ∧
    after 0x7C002264 u32 (fun t => t.srr1 == 0x44000) := by decide +kernel

/-- The block of V14: 256 Kbytes from effective 0x400000 at physical 0x1000000, for supervisors. -/
def batU : Vector DWord 4 := #v[0x00400006, 0, 0, 0]
/-- Its lower register, PP = 10. -/
def batL : Vector DWord 4 := #v[0x01000002, 0, 0, 0]

theorem test_bat :
    m32.walk batU batL .load 0x00421234 = .phys 0x01021234 [] ∧
    m32.walk batU batL .fetch 0x0043FFFF = .phys 0x0103FFFF [] ∧
    m32.walk batU #v[0x01000001, 0, 0, 0] .store 0x00421234 = .fault .protection ∧
    m32.walk #v[0x00400006, 0x00400002, 0, 0] #v[2, 2, 0, 0] .load 0x00401234 =
      .refused .batConflict := by decide +kernel

/-- Beside the block, and in it at user level, the segment registers decide. -/
theorem test_bat_missed :
    m32.walk batU batL .load 0x00440000 = m32.segmentWalk .load 0x00440000 ∧
    u32.walk batU batL .load 0x00421234 = u32.segmentWalk .load 0x00421234 := ⟨rfl, rfl⟩

/-- R188; a direct-store and a no-execute segment; the searches with no
meaning; the bridge with ASR[V] = MSR[SF] = 0 uses its sixteen images (R191). -/
theorem test_segments :
    virtualAddress 0x00123456 0x5ABCDEF0 = 0x123456ABCDEF0 ∧
    (m32.setSr 5 0x80000000).segmentWalk .load 0x5ABCDEF0 = .fault .directStore ∧
    (m32.setSr 5 0x10000000).segmentWalk .fetch 0x5ABCDEF0 = .fault .noExecute ∧
    { m32 with sdr1 := 2 }.segmentWalk .load 0 = .refused .sdr1Malformed ∧
    ({ m64 with msr := 0 }.setSr 5 0x80000000).segmentWalk .load 0x5ABCDEF0 =
      .fault .directStore ∧
    { m64 with msr := 0, asr := 0x2001 }.segmentWalk .load 0 = .refused .segmentTableReserved ∧
    { m64 with asr := 1 }.segmentWalk .fetch 0 = .refused .segmentTableReserved := by decide +kernel

/-- The search is asked for the page of the virtual address, with the segment's keys; with ASR[V] = 0
and MSR[SF] = 1 without a segment table, to which it then never refers (R140). -/
theorem test_page_query :
    (m32.setSr 5 0x60123456).segmentWalk .load 0x5ABCDEF0 =
      (m32.setSr 5 0x60123456).pageWalk .load (.virtual true true 0x123456ABCD) 0x5ABCDEF0 ∧
    { m64 with asr := 0x3001 }.segmentWalk .store 0x123456 =
      { m64 with asr := 0x3001 }.pageWalk .store (.effective (some 0x3000) 0x123) 0x123456 ∧
    { m64 with asr := 0x3000 }.segmentWalk .store 0x123456 =
      { m64 with asr := 0x3000 }.pageWalk .store (.effective none 0x123) 0x123456 ∧
    m64.searchRefs (.effective none 5) ⟨[1], [], .fault .noPage⟩ = [] ∧
    m64.searchRefs (.effective (some 0x3000) 5) ⟨[1], [], .fault .noPage⟩ = [0x3001] :=
  ⟨rfl, rfl, rfl, by decide +kernel, by decide +kernel⟩

/-- In a direct-store segment a load stops, external control is a DSI and a fetch an ISI (R189, R433,
R447, R448, R456). -/
theorem test_direct_store :
    refusedBy (exec (.lwz 3 0 0) ({ mExt with msr := 0x10 }.setSr 0 0x80000000)) .directStore ∧
    nextIs (exec (.ecowx 3 0 4) ({ mExt with msr := 0x10, ear := 0x80000003 }.setSr 0 0x80000000))
      (fun t => t.dsisr == 0x06000000 && t.dar == 0 && t.pc == 0x300) ∧
    nextIs (step { { m32 with msr := 0x20 }.setSr 0 0x80000000 with
        inputs := [⟨0, false, false, none⟩] })
      (fun t => t.srr0 == 0x1000 && t.srr1 == 0x10000020 && t.pc == 0x400) := by decide +kernel

/-- A load from a block without access is a DSI, a fetch from a no-execute segment an ISI. -/
theorem test_storage_faults :
    after 0x80640008 { regs m32 [(4, 0x421234)] with msr := 0x10, dbatU := batU,
                                                     dbatL := #v[0x01000000, 0, 0, 0] }
      (fun t => t.dsisr == 0x08000000 && t.dar == 0x42123C && t.pc == 0x300) ∧
    nextIs (step { { m32 with msr := 0x20 }.setSr 0 0x10000000 with
        inputs := [⟨0, false, false, none⟩] })
      (fun t => t.srr0 == 0x1000 && t.srr1 == 0x10000020 && t.pc == 0x400 && t.msr == 0) := by
  decide +kernel

/-- S15 and S16: the first and the last PTEG of a page table of 2 Mbytes and of 512 Kbytes. -/
theorem test_pteg :
    sdr1WellFormed Config.atReset 0x01200003 = true ∧
    ptegAddress Config.atReset 0x01200003 0 = 0x01200000 ∧
    ptegAddress Config.atReset 0x01200003 0xFFFFFFFFFFFFFFFF = 0x013FFF80 ∧
    sdr1TableBytes Config.atReset 0x01200003 = 0x200000 ∧
    sdr1WellFormed Config.minimal32 0x00480007 = true ∧
    ptegAddress Config.minimal32 0x00480007 1 = 0x00480040 ∧
    ptegAddress Config.minimal32 0x00480007 0xFFFFFFFF = 0x004FFFC0 ∧
    sdr1TableBytes Config.minimal32 0x00480007 = 0x80000 := by decide +kernel

/-! ## The boundary -/

/-- A nonrecoverable machine check does not synchronize the fetch, a recoverable one does (R453). -/
theorem test_nonrecoverable :
    ({ m32 with msr := 0x1000, storedSinceSync := [8] }).takeMachineCheck.storedSinceSync = [8] ∧
    ({ m32 with msr := 0x1002, storedSinceSync := [8] }).takeMachineCheck.storedSinceSync = [] ∧
    ({ m32 with storedSinceSync := [8] }).hardReset.storedSinceSync = [8] ∧
    ({ m32 with storedSinceSync := [8] }).softReset.storedSinceSync = [8] := by decide +kernel

/-- The input of a boundary with nothing requested and no tick. -/
def quiet : Input := ⟨0, false, false, none⟩

/-- `m32` with one instruction placed and one input queued. -/
def ready (s : State) (w : Nat) (i : Input) : State :=
  { s.withFetchWord 32 w with inputs := [i] }

theorem test_step_after_reset :
    nextIs (step (State.reset.withFetchWord 32 0x38600007))
      (fun t => t.getGpr 3 == 7 && t.pc == 0xFFFFFFFFFFF00104) = true := by decide +kernel
theorem test_step_decrementer :
    nextIs (step { ready { m32 with msr := 0x8000, pc := 0x114 } 0x38A50001 quiet with
        decRequest := true })
      (fun t => t.srr0 == 0x114 && t.srr1 == 0x8000 && t.msr == 0 && t.pc == 0x900 &&
        !t.decRequest) = true := by decide +kernel
theorem test_step_external_first :
    nextIs (step { m32 with msr := 0x8000, decRequest := true, inputs := [⟨0, true, false, none⟩] })
      (fun t => t.pc == 0x500 && t.decRequest) = true := by decide +kernel
theorem test_step_masked :
    nextIs (step (ready m32 0x38600007 ⟨1, true, false, none⟩))
      (fun t => t.getGpr 3 == 7 && t.timeBase == 1) = true := by decide +kernel
theorem test_step_undescribed :
    refusedBy (step (ready m32 0 quiet)) .undescribedWord = true := by decide +kernel
theorem test_step_checkstop :
    nextIs (step { m32 with inputs := [⟨0, false, true, none⟩] }) (fun t => t.checkstop) = true := by
  decide +kernel
theorem test_entry_msr :
    msrAfterEntry Config.minimal32 0xD032 .decrementer = 0x1000 ∧
    msrAfterEntry Config.minimal32 0x1B072 .decrementer = 0x11041 ∧
    msrAfterEntry Config.minimal32 0x1000 .machineCheck = 0 := by decide +kernel
/-- An entry into 32-bit mode of the bridge clears the high half of the vector (R166, log 21). -/
theorem test_entry_pc :
    ({ m64 with msr := 0x8000000000000040 }.take .systemCall 0x1004 0).pc = 0xFFF00C00 ∧
    ({ m64 with msr := 0xA000000000000040 }.take .systemCall 0x1004 0).pc = 0xFFFFFFFFFFF00C00 := by
  decide +kernel
theorem test_reset :
    State.reset.msr = 0xA000000000000040 ∧ State.reset.pc = 0xFFFFFFFFFFF00100 ∧
    (State.resetOf Config.minimal32).msr = 0x40 ∧
    (State.resetOf Config.minimal32).pc = 0xFFF00100 ∧
    (State.resetOf { Config.minimal32 with msrIpReset := false }).pc = 0x100 := by decide +kernel

/-! ## Well-synchronized executions (R490 to R500) -/

/-- The event that executes `i` at `s`, followed by `k`, the trace or nothing. -/
def did (s : State) (i : Instr) (k : State → State := id) : Event :=
  ⟨s, true, some i, match exec i s with | .next t => k t | _ => s⟩

/-- The trace exception after an instruction. -/
def traced (t : State) : State := t.take .trace t.pc 0

/-- A floating-point instruction after MSR[FP] := 0 needs a synchronization before it, and its own
exception is none. -/
theorem test_sync_fp :
    wellSynchronized [did (fp32 0) (.mtmsr 3), did m32 (.mtfsfi 7 1 false)] = false ∧
    wellSynchronized [did (fp32 0) (.mtmsr 3), did m32 .sc, did m32 (.mtfsfi 7 1 false)] = true ∧
    wellSynchronized [did (fp32 0) (.mtmsr 3), did m32 (.addi 3 0 7)] = true := by decide +kernel

/-- `m32` with a block that maps the first 128 Kbytes onto themselves, for fetches and for data. -/
def mapped : State :=
  { m32 with ibatU := #v[2, 0, 0, 0], ibatL := #v[2, 0, 0, 0], dbatU := #v[2, 0, 0, 0],
             dbatL := #v[2, 0, 0, 0] }

/-- Segment registers loaded with translation off need nothing, with a load under MSR[DR] before
them a synchronization (R490). -/
theorem test_sync_segment :
    wellSynchronized [did m32 (.mtsr 3 1), did m32 (.lwz 3 0 0), did m32 (.mtsr 3 2)] = true ∧
    wellSynchronized [did { mapped with msr := 0x10 } (.lwz 3 0 0), did m32 (.mtsr 3 2)] = false ∧
    wellSynchronized [did { mapped with msr := 0x10 } (.lwz 3 0 0), did m32 .rfi,
      did m32 (.mtsr 3 2)] = true := by decide +kernel

/-- SDR1 needs a `sync` after the last translated access, a fetch too (R494). -/
theorem test_sync_sdr1 :
    wellSynchronized [did { mapped with msr := 0x20 } .sc, did m32 (.mtspr 3 25)] = false ∧
    wellSynchronized [did { mapped with msr := 0x20 } .sc, did m32 .sync, did m32 (.mtspr 3 25)]
      = true := by decide +kernel

/-- A traced alteration is one: a BAT moved after a translated load, SF changed above 2^32. -/
theorem test_sync_traced :
    wellSynchronized [did { mapped with msr := 0x10 } (.lwz 3 0 0),
      did { m32 with msr := 0x400 } (.mtspr 3 536) traced] = false ∧
    wellSynchronized [did { m64 with msr := 0x8000000000000400, pc := 0x100000000 } (.mtmsrd 3)
      traced] = false ∧
    wellSynchronized [did { m64 with msr := 0x8000000000000400 } (.mtmsrd 3) traced] = true := by
  decide +kernel

/-- The move that changes SF at 0xFFFFFFFC goes on to 2^32 or to 0: the branch note 9 forbids (R497). -/
theorem test_sync_sf :
    wellSynchronized [did { m64 with pc := 0xFFFFFFFC } (.mtmsrd 3), did { m64 with msr := 0, pc := 0 } .sc]
      = false ∧
    wellSynchronized [did { m64 with pc := 0xFFFFFFF8 } (.mtmsrd 3),
      did { m64 with msr := 0, pc := 0xFFFFFFFC } .sc] = true := by decide +kernel

/-- A machine whose IBAT pair 0 maps the first block elsewhere, with the lower register that maps it
onto itself in r3 and MSR[IR] in r4. -/
def remap : State :=
  { regs m32 [(3, 2), (4, 0x20)] with ibatU := #v[2, 0, 0, 0], ibatL := #v[0x01000002, 0, 0, 0] }

/-- An IBAT moved with translation off bears on the fetch after IR is set, unless a synchronization
comes between (R498). -/
theorem test_sync_fetch :
    wellSynchronized [did remap (.mtspr 3 529), did { remap with ibatL := #v[2, 0, 0, 0] } (.mtmsr 4),
      did { remap with ibatL := #v[2, 0, 0, 0], msr := 0x20 } .sc] = false ∧
    wellSynchronized [did remap (.mtspr 3 529), did { remap with ibatL := #v[2, 0, 0, 0] } .sc,
      did { remap with ibatL := #v[2, 0, 0, 0] } (.mtmsr 4),
      did { remap with ibatL := #v[2, 0, 0, 0], msr := 0x20 } .sc] = true ∧
    wellSynchronized [did remap (.mtmsr 4), did { remap with msr := 0x20 } .sc] = false := by
  decide +kernel

/-- A move to MSR that only takes the privileged exception has altered nothing (R498, R500). -/
theorem test_sync_privileged :
    wellSynchronized [did { remap with msr := 0x4020, ibatU := #v[3, 0, 0, 0],
                                       ibatL := #v[0x00020002, 0, 0, 0] } (.mtmsr 5)] = true ∧
    wellSynchronized [did { remap with msr := 0x20, ibatU := #v[3, 0, 0, 0],
                                       ibatL := #v[0x00020002, 0, 0, 0] } (.mtmsr 5)] = false := by
  decide +kernel

/-- PR and SF change with IR: a user-only block that maps the code onto itself serves the move that sets
IR and PR, a supervisor-only one does not; so with IR set and SF cleared (R498). -/
theorem test_sync_fetch_level :
    wellSynchronized [did (regs { m32 with ibatU := #v[1, 0, 0, 0], ibatL := #v[2, 0, 0, 0] }
        [(3, 0x4020)]) (.mtmsr 3),
      did { m32 with msr := 0x4020, ibatU := #v[1, 0, 0, 0], ibatL := #v[2, 0, 0, 0] } .sc] = true ∧
    wellSynchronized [did ((regs { m32 with ibatU := #v[2, 0, 0, 0], ibatL := #v[2, 0, 0, 0] }
        [(3, 0x4020)]).setSr 0 0x80000000) (.mtmsr 3)] = false ∧
    wellSynchronized [did (regs { m64 with ibatU := #v[2, 0, 0, 0], ibatL := #v[2, 0, 0, 0] }
        [(3, 0x20)]) (.mtmsrd 3),
      did { m64 with msr := 0x20, ibatU := #v[2, 0, 0, 0], ibatL := #v[2, 0, 0, 0] } .sc] = true := by
  decide +kernel

/-- BE bears on branches only; a machine check after a change of ME, taken or not, needs the
synchronization (R499). -/
theorem test_sync_be_me :
    wellSynchronized [did (regs m64 [(3, 0x8000000000000200)]) (.mtmsrd 3),
      did { m64 with msr := 0x8000000000000200 } (.addi 3 0 7)] = true ∧
    wellSynchronized [did (regs m64 [(3, 0x8000000000000200)]) (.mtmsrd 3),
      did { m64 with msr := 0x8000000000000200 } (.b 2 false false)] = false ∧
    wellSynchronized [did { m32 with msr := 0x1000 } (.mtmsr 3),
      ⟨m32, false, none, m32.takeMachineCheck⟩] = false ∧
    wellSynchronized [did (regs m32 [(3, 0x1002)]) (.mtmsr 3),
      ⟨{ m32 with msr := 0x1002 }, false, none, { m32 with msr := 0x1002 }.takeMachineCheck⟩]
      = false := by decide +kernel

/-! ## Witnesses: states and operands that meet the hypotheses of the statements, clause by clause -/

theorem witness_EncodeDecode : ∃ i, decode 0x38600007 = .ok i := ⟨.addi 3 0 7, rfl⟩

/-- `MultiplyLowResult`, `DivideDoubleResult` and, with L = 1, `CompareResult`. -/
theorem witness_doubleword : m64.cfg.xlen64 = true := by decide +kernel

/-- `TrapOnCondition`: each of the five conditions can be the one that holds, and none can. -/
theorem witness_TrapOnCondition :
    trapSelected 16 0xFFFFFFFF 1 ∧ trapSelected 8 1 0xFFFFFFFF ∧ trapSelected 4 7 7 ∧
    trapSelected 2 1 0xFFFFFFFF ∧ trapSelected 1 0xFFFFFFFF 1 ∧ ¬trapSelected 4 11 10 ∧
    ¬trapSelected 0 7 7 := by
  unfold trapSelected
  refine ⟨?_, ?_, ?_, ?_, ?_, ?_, ?_⟩ <;> decide +kernel

theorem witness_McrxrResult : m32.xer.getLsbD 28 = false := by decide +kernel

/-- The four results of FPSCR instructions: floating point on, its exceptions disabled; the copied
field of `mcrfs` and the read of `mffs` with and without the reserved bit. -/
theorem witness_fpscr_results :
    (fp32 0x80000480).msrBit msrFP = true ∧ (fp32 0x80000480).msrBit msrFE0 = false ∧
    (fp32 0x80000480).msrBit msrFE1 = false ∧ srcBit (fp32 0x80000480).fpscr 20 = false ∧
    (0 : FieldNum) ≠ 5 := by decide +kernel

theorem witness_FpUnavailable :
    m32.msrBit msrFP = false ∧ Instr.mffs 2 true ∈ fpscrInstrs 0 0 2 0 0 true := by decide +kernel

/-- `FpEnabledException`: both outcomes. -/
theorem witness_FpEnabledException :
    (({ fp32 0x400 with msr := 0x2100 }).msrBit msrFP = true ∧
      ({ fp32 0x400 with msr := 0x2100 }).msrBit msrFE1 = true ∧
      nextIs (exec (.mtfsb1 24 false) { fp32 0x400 with msr := 0x2100 })
        fun t => fpscrFEX t.fpscr) ∧
    nextIs (exec (.mtfsb1 25 false) { fp32 0x400 with msr := 0x2800 })
      (fun t => !fpscrFEX t.fpscr) := by decide +kernel

/-- A supervisor state whose FEX is 1, with a new MSR that turns FE0 and FE1 on waiting in r1 and in
SRR1. -/
def fexPending : State := { regs m32 [(1, 0x900)] with fpscr := 0x480, srr1 := 0x900 }

theorem witness_MsrChangeRaisesFp :
    fpscrFEX fexPending.fpscr = true ∧
    nextIs (exec (.mtmsr 1) { fexPending with fpscr := 0 }) (fun u =>
      u.msrBit msrFE0 && !fexPending.msrBit msrFE0) ∧
    nextIs (exec .rfi { fexPending with fpscr := 0 }) (fun u =>
      u.msrBit msrFE1 && !fexPending.msrBit msrFE1) ∧
    nextIs (exec (.mtmsrd 1) { regs m64 [(1, 0x900)] with fpscr := 0 }) (fun u =>
      u.msrBit msrFE0 && !m64.msrBit msrFE0) ∧
    nextIs (exec .rfid { m64 with srr1 := 0x900 }) (fun u =>
      u.msrBit msrFE0 && !m64.msrBit msrFE0) := by decide +kernel

/-- The branches: an aligned pc, at 0 and at the top of the address space; BO values of each kind. -/
theorem witness_branches :
    m32.pcAligned = true ∧ ({ m32 with pc := 0xFFFFFFFC }).pcAligned = true ∧ bo 20 2 = true ∧
    bo 16 2 = false ∧ bo 18 3 = true ∧ bo 8 0 = false ∧ takenRule 16 0 m32 { m32 with ctr := 1 } ∧
    ¬takenRule 16 0 m32 m32 := by
  unfold takenRule; decide +kernel

/-- `MtsprStores`: a user-level number at user level, and DEC, SDR1 and a lower IBAT for the
supervisor. -/
theorem witness_MtsprStores :
    (sprWritable u32.cfg 1 = some .xer ∧ (1 : BitVec 10).getLsbD 4 = false) ∧
    (sprWritable m32.cfg 22 = some .dec ∧ m32.user = false) ∧
    (sprWritable m32.cfg 25 = some .sdr1 ∧ m32.msrBit msrIR = false ∧ m32.msrBit msrDR = false) ∧
    (sprWritable m32.cfg 529 = some (.ibatL 0) ∧ (m32.getGpr 3).getLsbD 6 = false ∧
      (m32.getGpr 3).getLsbD 3 = false) := by decide +kernel

theorem witness_MfsprReads :
    (sprReadable u32.cfg 9 = some .ctr ∧ (9 : BitVec 10).getLsbD 4 = false) ∧
    (sprReadable m32.cfg 287 = some .pvr ∧ m32.user = false) := by decide +kernel

theorem witness_SprPrivileged :
    u32.user = true ∧ (1008 : BitVec 10).getLsbD 4 = true ∧ (26 : BitVec 10).getLsbD 4 = true ∧
    sprNamed u32.cfg 26 = some .srr0 ∧ sprNumber u32.cfg 26 .srr0 ∧ sprNumber m64.cfg 280 .asr ∧
    sprNamed u32.cfg 280 = none := by
  unfold sprNumber; decide +kernel

/-- `SprUndefined`: the three policies, at user level with an unprivileged number too, and there with
another number of `mftb`. -/
theorem witness_SprUndefined :
    sprWritable m32.cfg 287 = none ∧ sprReadable u32.cfg 2 = none ∧
    (2 : BitVec 10).getLsbD 4 = false ∧ m32.cfg.undefSpr = .refuse ∧ m64.cfg.undefSpr = .illegal ∧
    ({ Config.minimal32 with undefSpr := .privileged }).undefSpr = .privileged ∧
    sprReadable m64.cfg 284 = none ∧ u32.user = true ∧ (284 : BitVec 10).getLsbD 4 = true ∧
    (284 : BitVec 10) ≠ 268 ∧ (284 : BitVec 10) ≠ 269 := by
  decide +kernel

/-- `InvalidForms`: every stop is met; the last register of a string of 127 bytes is the base. -/
theorem witness_InvalidForms :
    (m32.cfg.xlen64 = false ∧ refusedBy (exec (.cmp 0 true 3 4) m32) .invalidForm) ∧
    (bo 16 2 = false ∧ refusedBy (exec (.bcctr 16 0 false) m32) .invalidForm) ∧
    refusedBy (exec (.lswx 5 4 6) { m32 with xer := 127 }) .invalidForm ∧
    (31 < (({ m32 with xer := 127 }).xer.toNat % 128 + 3) / 4 ∧
      (5 : RegNum) + BitVec.ofNat 5 31 = 4) ∧
    refusedBy (exec (.mtspr 3 25) { m32 with msr := 0x10 }) .sdr1WhileTranslating ∧
    refusedBy (exec (.mtspr 3 535) (regs m32 [(3, 0x40)])) .ibatWG := by decide +kernel

/-- `MsrMoves`: with and without POW, with and without FEX, with a mode on that stays, on both widths,
SF going to 0; POW written as 1 where it exists. -/
theorem witness_MsrMoves :
    (m32.user = false ∧ m32.cfg.hasPow = false ∧ m32.cfg.xlen64 = false ∧
      quietFe m32 true true) ∧
    (fpscrFEX ({ m64 with fpscr := 0x480 }).fpscr = true ∧
      quietFe { m64 with fpscr := 0x480 } ((m64.getGpr 3).getLsbD 11) ((m64.getGpr 3).getLsbD 8) ∧
      quietFe { m64 with fpscr := 0x480, msr := 0x800 } true false ∧
      m64.cfg.hasBridge = true ∧ m64.cfg.xlen64 = true) ∧
    (({ Config.minimal32 with hasPow := true }).hasPow = true ∧
      (m32.getGpr 3).getLsbD 18 = false) ∧
    (lo32 0x40000 = ({ regs m32 [(3, 0x40000)] with
        cfg := { Config.minimal32 with hasPow := true } }).gprWord 3 ∧ hi32 0x40000 = 0 ∧
      (0x40000 : DWord).getLsbD 18 = true ∧
      refusedBy (exec (.mtmsr 3) { regs m32 [(3, 0x40000)] with
        cfg := { Config.minimal32 with hasPow := true } }) .powerManagement) ∧
    nextIs (exec (.mtmsrd 3) { m64 with pc := 0xFFFFFFFC }) (fun t => t.pc == 0 && t.msr == 0) := by
  unfold quietFe; decide +kernel

/-- `SegmentMoves`: a number and an address select a register; a T = 1 and a T = 0 register, and the
bridge. -/
theorem witness_SegmentMoves :
    m32.user = false ∧ m32.cfg.xlen64 = false ∧
    (15 : BitVec 4).toNat = ((regs m32 [(6, 0xF0000000)]).gprWord 6).toNat / 2 ^ 28 ∧
    ((m32.setSr 5 0x8F000001).getSr 5).getLsbD 31 = true ∧
    ((m32.setSr 5 0x20123456).getSr 5).extractLsb' 24 4 = 0 ∧
    m64.user = false ∧ m64.cfg.xlen64 = true ∧ m64.cfg.hasBridge = true := by decide +kernel

/-- `ReturnRestores`: with FEX = 0, and with FEX = 1 where the restored modes are off or as before. -/
theorem witness_ReturnRestores :
    m32.user = false ∧ quietFe m32 true true ∧ m32.cfg.xlen64 = false ∧ m64.user = false ∧
    m64.cfg.xlen64 = true ∧ fpscrFEX ({ m64 with fpscr := 0x480 }).fpscr = true ∧
    quietFe { m64 with fpscr := 0x480 } (m64.srr1.getLsbD 11) (m64.srr1.getLsbD 8) ∧
    quietFe { m64 with fpscr := 0x480, msr := 0x900 } true true := by
  unfold quietFe; decide +kernel

/-- `CallReturnRoundTrip` from user level, on both widths, with FEX 0 and 1. -/
theorem witness_CallReturnRoundTrip :
    (u32.widthsOk = true ∧ u32.pcAligned = true ∧ u32.msr &&& ~~~msrDefined u32.cfg = 0 ∧
      u32.msrBit msrPOW = false ∧ fpscrFEX u32.fpscr = false ∧
      fpscrFEX ({ u32 with fpscr := 0x480 }).fpscr = true ∧ u32.msrBit msrFE0 = false ∧
      u32.msrBit msrFE1 = false ∧
      nextIs (exec .sc u32) fun t => nextIs (exec .rfi t) fun u => u.msr == 0x4000) ∧
    (m64.widthsOk = true ∧ m64.pcAligned = true ∧ m64.msr &&& ~~~msrDefined m64.cfg = 0 ∧
      m64.msrBit msrPOW = false ∧ fpscrFEX m64.fpscr = false ∧
      nextIs (exec .sc { m64 with msr := 0xA000000000004000 }) fun t =>
        nextIs (exec .rfid t) fun u => u.msr == 0xA000000000004000) := by decide +kernel

/-- `SupervisorOnly` and `SynchronizeOnly`. -/
theorem witness_supervisor :
    (u32.user = true ∧ (Instr.mfmsr 3, true) ∈ supervisorInstrs u32.cfg 3 4 5 ∧
      (Instr.tlbia, true) ∈ supervisorInstrs u32.cfg 3 4 5 ∧
      (Instr.rfid, false) ∈ supervisorInstrs u32.cfg 3 4 5) ∧
    (m32.cfg.xlen64 = false ∧ m32.cfg.hasEar = false) ∧
    (m64.user = false ∧ m64.cfg.hasTlbia = true ∧ m64.cfg.xlen64 = true) := by decide +kernel

/-- `m32` with data translated by the block of V14. -/
def mappedData : State := { m32 with msr := 0x10, dbatU := batU, dbatL := batL }

/-- The data accesses under translation: 127 bytes up to the end of a block, its last word loaded. -/
theorem witness_translated :
    mappedData.msrBit msrLE = false ∧ mappedData.memOk = true ∧
    (noBreakpoint mappedData false 0x43FF81 127 ∧ noBreakpoint mappedData true 0x43FF81 127) ∧
    translates mappedData false 0x43FF81 127 (fun j => 0x103FF81 + BitVec.ofNat 64 j) (fun _ => []) ∧
    translates mappedData true 0x43FF81 127 (fun j => 0x103FF81 + BitVec.ofNat 64 j) (fun _ => []) ∧
    allPresent mappedData 127 (fun j => 0x103FF81 + BitVec.ofNat 64 j) ∧
    nextIs (exec (.lwz 3 4 0) (bytes (regs mappedData [(4, 0x43FFFC)]) 0x103FFFC [1, 2, 3, 4]))
      (fun t => t.getGpr 3 == 0x01020304) := by
  unfold noBreakpoint allPresent translates; decide +kernel

/-- `LwzLoads`: the last word of the address space; a breakpoint armed elsewhere; a misaligned word
where the implementation performs it. -/
theorem witness_LwzLoads :
    (0xFFFFFFFC : DWord) = mExt.ea ((if (0 : RegNum) = 0 then 0 else mExt.getGpr 0) +
      (0xFFFC : BitVec 16).signExtend 64) ∧ (0xFFFFFFFC : DWord).toNat % 4 = 0 ∧
    mExt.msrBit msrLE = false ∧ mExt.msrBit msrDR = false ∧
    noBreakpoint { mExt with dabr := 0x1003 } false 0xFFFFFFFC 4 ∧
    translates mExt false 0xFFFFFFFC 4 (fun j => 0xFFFFFFFC + BitVec.ofNat 64 j) (fun _ => []) ∧
    allPresent mExt 4 (fun j => 0xFFFFFFFC + BitVec.ofNat 64 j) ∧
    ({ Config.minimal32 with alignment := .perform }).alignment = .perform ∧
    nextIs (exec (.lwz 3 0 1) (bytes { m32 with cfg := { Config.minimal32 with alignment := .perform } }
      1 [1, 2, 3, 4])) (fun t => t.getGpr 3 == 0x01020304) := by
  unfold noBreakpoint allPresent translates; decide +kernel

/-- `LswxLoads`: no byte, one byte, and the longest string that leaves the index register out. -/
theorem witness_LswxLoads :
    ((0 : Nat) = m32.xer.toNat % 128) ∧ ((1 : Nat) = ({ m32 with xer := 1 }).xer.toNat % 128) ∧
    ((124 : Nat) = ({ m32 with xer := 124 }).xer.toNat % 128 ∧ (1 : RegNum) ≠ 0 ∧
      (∀ k, k < (124 + 3) / 4 → ((0 : RegNum) ≠ 0 → (1 : RegNum) + BitVec.ofNat 5 k ≠ 0) ∧
        (1 : RegNum) + BitVec.ofNat 5 k ≠ 0) ∧
      noBreakpoint m32 false 0xFFFFFFFE 124 ∧
      translates m32 false 0xFFFFFFFE 124 (fun j => low (0xFFFFFFFE + BitVec.ofNat 64 j))
        (fun _ => []) ∧
      allPresent m32 124 (fun j => low (0xFFFFFFFE + BitVec.ofNat 64 j))) := by
  unfold noBreakpoint allPresent translates; decide +kernel

/-- `StswxStores`: no byte, and 127 bytes that wrap at the top of the address space. -/
theorem witness_StswxStores :
    m32.memOk = true ∧ m32.msrBit msrLE = false ∧ m32.msrBit msrDR = false ∧
    ((0 : Nat) = m32.xer.toNat % 128) ∧ ((127 : Nat) = ({ m32 with xer := 127 }).xer.toNat % 128) ∧
    noBreakpoint m32 true 0xFFFFFFFE 127 ∧
    translates m32 true 0xFFFFFFFE 127 (fun j => low (0xFFFFFFFE + BitVec.ofNat 64 j))
      (fun _ => []) ∧
    allPresent m32 127 (fun j => low (0xFFFFFFFE + BitVec.ofNat 64 j)) := by
  unfold noBreakpoint allPresent translates; decide +kernel

/-- `ExternalControl` and the first clause of `DsiCauses`. -/
theorem witness_ExternalControl :
    (mExt.cfg.hasEar = true ∧ srcBit ({ mExt with ear := 0x80000003 }).ear 0 = true ∧
      noBreakpoint mExt false 0 4 ∧ noBreakpoint mExt true 0 4 ∧ mExt.msrBit msrLE = false ∧
      translates mExt false 0 4 (BitVec.ofNat 64) (fun _ => []) ∧
      translates mExt true 0 4 (BitVec.ofNat 64) (fun _ => []) ∧
      ({ mExt with extReplies := [7] }).extReplies = 7 :: []) ∧
    srcBit ({ mExt with ear := 3 }).ear 0 = false := by
  unfold noBreakpoint translates; decide +kernel

/-- `DsiCauses`: each of the five accesses; a breakpoint on the last byte of a word and of a string; a
block without access under a load, a read-only one under a store whose second byte meets it; a fetch
from a no-execute segment; a direct-store segment. -/
theorem witness_DsiCauses :
    (accesses (.lwz 3 0 0x1000) false 0x1000 4 mExt ∧
      accesses (.lswx 5 0 4) false 0 3 { mExt with xer := 3 } ∧
      accesses (.stswx 5 0 4) true 0 3 { mExt with xer := 3 } ∧
      accesses (.eciwx 3 0 4) false 0 4 { mExt with ear := 0x80000003 } ∧
      accesses (.ecowx 3 0 4) true 0 4 { mExt with ear := 0x80000003 }) ∧
    (mExt.cfg.hasDabr = true ∧ mExt.msrBit msrLE = false ∧ dabrBT 0x1003 = mExt.msrBit msrDR ∧
      dabrDR 0x1003 = true ∧ dabrDW 0x1003 = true ∧
      (mExt.ea (0x1004 + BitVec.ofNat 64 3)) >>> 3 = (0x1003 : DWord) >>> 3 ∧
      (mExt.ea (0xFFE + BitVec.ofNat 64 2)) >>> 3 = (0x1003 : DWord) >>> 3) ∧
    (noBreakpoint m32 true 0x3FFFFF 2 ∧
      ({ m32 with msr := 0x10, dbatU := #v[0x00400002, 0x003E0002, 0, 0],
                  dbatL := #v[1, 2, 0, 0] }).dataWalk true 0x3FFFFF = .phys 0x1FFFF [] ∧
      ({ m32 with msr := 0x10, dbatU := #v[0x00400002, 0x003E0002, 0, 0],
                  dbatL := #v[1, 2, 0, 0] }).dataWalk true 0x400000 = .fault .protection ∧
      ({ mExt with msr := 0x10 }.setSr 0 0x80000000).dataWalk false 0 = .fault .directStore ∧
      isExternal (.eciwx 3 0 4) = true ∧ isExternal (.lwz 3 0 0) = false) ∧
    (∃ s, s = { { m32 with msr := 0x20 }.setSr 0 0x10000000 with inputs := [quiet] } ∧
      quietBoundary s s.atBoundary ∧
      s.atBoundary.fetchWalk (s.atBoundary.ea s.atBoundary.pc) = .fault .noExecute) := by
  refine ⟨⟨⟨3, 0, 0, 0x1000, ?_⟩, ⟨5, 0, 4, 0, ?_⟩, ⟨5, 0, 4, 0, ?_⟩, ⟨3, 0, 4, 0, ?_⟩,
    ⟨3, 0, 4, 0, ?_⟩⟩, ?_, ?_, ⟨_, rfl, ?_, ?_⟩⟩
  · exact .inl (by decide +kernel)
  · exact .inr (by decide +kernel)
  · exact .inr (by decide +kernel)
  · exact .inr (by decide +kernel)
  · exact .inr (by decide +kernel)
  · decide +kernel
  · unfold noBreakpoint; decide +kernel
  · exact ⟨rfl, by decide +kernel⟩
  · decide +kernel

/-- `MisalignedTraps`: the three policies. -/
theorem witness_MisalignedTraps :
    mExt.cfg.alignment = .trap ∧ m32.cfg.alignment = .refuse ∧ (1 : DWord).toNat % 4 ≠ 0 ∧
    (1 : DWord) = mExt.ea ((if (0 : RegNum) = 0 then 0 else mExt.getGpr 0) +
      (1 : BitVec 16).signExtend 64) ∧
    mExt.cfg.hasEar = true ∧ srcBit ({ mExt with ear := 0x80000003 }).ear 0 = true ∧
    nextIs (exec (.eciwx 3 0 4) { regs mExt [(4, 2)] with
      ear := 0x80000003, cfg := { mExt.cfg with alignment := .perform } })
      (fun t => t.pc == 0x600 && t.dar == 2) := by
  decide +kernel

/-- `BatTranslates`: the block of V14 in pair 2 beside a valid pair that does not match, at its last
byte, for a load, a store and a denied store; two pairs that match; a pair that breaks R131; none that
matches. -/
theorem witness_BatTranslates_blocks :
    (∃ us ls : Vector DWord 4, us = #v[0x00800006, 0, 0x00400006, 0] ∧
      ls = #v[0x02000002, 0, 0x01000002, 0] ∧
      (∀ i : Fin 4, pairValid m32 us[i] = true → pairSound us[i] ls[i]) ∧
      pairHits m32 us[2] 0x0043FFFF ∧ (∀ i : Fin 4, i ≠ 2 → ¬pairHits m32 us[i] 0x0043FFFF) ∧
      narrow m32.cfg ls[2] = true ∧ narrow m32.cfg 0x0043FFFF = true ∧
      batPP ls[2] = 0b10 ∧ batPP 0x01000001 ≠ 0b10 ∧
      (∀ i : Fin 4, ¬pairHits m32 us[i] 0x00440000)) ∧
    (pairHits m32 0x00400006 0x00401234 ∧ pairHits m32 0x00400002 0x00401234) ∧
    (pairValid m32 0x00420006 = true ∧ ¬pairSound 0x00420006 0) := by
  unfold pairHits pairSound
  exact ⟨⟨_, _, rfl, rfl, by decide +kernel⟩, by decide +kernel⟩

/-- Its segments: a direct-store, a no-execute and an ordinary one, on a 32-bit machine and on the
bridge; the segment table in the third and in the fourth page; SDR1 well and ill formed. -/
theorem witness_BatTranslates_segments :
    (m64.cfg.xlen64 = true ∧ ({ m64 with asr := 0x3001 }).asr.getLsbD 0 = true) ∧
    (m32.cfg.xlen64 = false ∧ ((m32.setSr 5 0x80000000).getSr 5).getLsbD 31 = true ∧
      ((m32.setSr 5 0x10123456).getSr 5).getLsbD 31 = false ∧
      ((m32.setSr 5 0x10123456).getSr 5).getLsbD 28 = true ∧
      ((m32.setSr 5 0x123456).getSr 5).getLsbD 28 = false) ∧
    (m64.cfg.hasBridge = true ∧ m64.asr.getLsbD 0 = false ∧
      ({ m64 with msr := 0 }).msrBit msrSF = false ∧ m64.msrBit msrSF = true) ∧
    ((0x2FFF : DWord).toNat / 2 ^ 12 ≤ 2 ∧ 2 < (0x3001 : DWord).toNat / 2 ^ 12) ∧
    sdr1WellFormed m32.cfg m32.sdr1 = true ∧ sdr1WellFormed m32.cfg 2 = false := by decide +kernel

theorem witness_MemoryLaws :
    Memory.wf [(0, 1), (5, 7)] = true ∧ Memory.wf [] = true := by decide +kernel

/-- `FetchReadsMemory`: translation off, and through a block. -/
theorem witness_FetchReadsMemory :
    (m32.fetchWalk (m32.ea m32.pc) = .phys 0x1000 [] ∧ m32.storedSinceSync = [] ∧
      allPresent m32 4 (fun j => m32.x (0x1000 + BitVec.ofNat 64 j))) ∧
    ∃ s, s = { m32 with msr := 0x20, ibatU := batU, ibatL := batL, pc := 0x43FFFC } ∧
      s.fetchWalk (s.ea s.pc) = .phys 0x103FFFC [] ∧ s.storedSinceSync = [] ∧
      allPresent s 4 (fun j => s.x (0x103FFFC + BitVec.ofNat 64 j)) := by
  unfold allPresent
  exact ⟨by decide +kernel, _, rfl, by decide +kernel⟩

/-- `StepRunsDecoded` and `TraceFollows`: a state whose step executes `addi`. -/
theorem witness_StepRunsDecoded :
    ∃ s, s = ready m32 0x38600007 quiet ∧ quietBoundary s s.atBoundary ∧
      s.atBoundary.fetch = .word 0x38600007 ∧ decode 0x38600007 = .ok (.addi 3 0 7) :=
  ⟨_, rfl, ⟨rfl, by decide +kernel⟩, by decide +kernel⟩

/-- `TraceFollows`: single-step and branch trace, on a machine that has them; a return untraced. -/
theorem witness_TraceFollows :
    (m64.cfg.hasSe = true ∧ ({ m64 with msr := 0x8000000000000400 }).msrBit msrSE = true ∧
      nextIs (step (ready { m64 with msr := 0x8000000000000400 } 0x38600007 quiet)) fun t =>
        t.pc == 0xD00 && t.srr0 == 0x1004 && t.getGpr 3 == 7) ∧
    (m64.cfg.hasBe = true ∧ ({ m64 with msr := 0x8000000000000200 }).msrBit msrBE = true ∧
      isBranch (.b 2 false false) = true ∧
      nextIs (step (ready { m64 with msr := 0x8000000000000200 } 0x48000008 quiet)) fun t =>
        t.pc == 0xD00 && t.srr0 == 0x1008) ∧
    (isBranch .rfid = false ∧
      nextIs (step (ready { m64 with msr := 0x8000000000000600, srr0 := 0x2000 } 0x4C000024 quiet))
        fun t => t.pc == 0x2000 && t.lastExc == none) := by decide +kernel

/-- `BoundaryOrder`: the clauses, each where the next could also apply. -/
theorem witness_BoundaryOrder :
    nextIs (step { m32 with checkstop := true, inputs := [⟨0, true, true, some .hard⟩] })
      (fun t => t.pc == 0xFFF00100 && t.msr == 0x40 && !t.checkstop) ∧
    nextIs (step { m32 with checkstop := true, inputs := [⟨1, true, true, none⟩] })
      (fun t => t.checkstop && t.pc == 0x1000 && t.tbl == 1) ∧
    ({ m32 with checkstop := true }).nextInput.reset = none ∧ m32.inputs = [] ∧
    nextIs (step { m32 with inputs := [⟨0, true, true, some .soft⟩] }) (fun t => t.pc == 0x100) ∧
    nextIs (step { m32 with msr := 0x9000, inputs := [⟨0, true, true, none⟩] })
      (fun t => t.pc == 0x200 && t.msr == 0) ∧
    nextIs (step { m32 with msr := 0x8000, inputs := [⟨0, true, true, none⟩] })
      (fun t => t.checkstop) ∧
    nextIs (step { m32 with msr := 0x8000, decRequest := true, inputs := [quiet] })
      (fun t => t.pc == 0x900) := by decide +kernel

/-- The invariants hold at a state whose step gives a next state; so does the premise on FPSCR. -/
theorem witness_StepKeeps :
    ∃ s, s = ready m32 0x38600007 quiet ∧ s.memOk = true ∧ s.pcAligned = true ∧
      s.pcInMode = true ∧ s.widthsOk = true ∧ s.fpscr &&& fpscrComputed = 0 ∧ nextIs (step s) (fun _ => true) = true :=
  ⟨_, rfl, by decide +kernel⟩

/-- `UserCannotAlter`: translation off, SRR0 and SRR1 left alone, no data accessed. -/
theorem witness_UserCannotAlter :
    u32.user = true ∧ u32.lastExc = none ∧ u32.msrBit msrDR = false ∧
    ({ Config.minimal32 with srrClobber := false }).srrClobber = false ∧
    accessesData (.addi 3 0 7) = false ∧ nextIs (exec (.addi 3 0 7) { u32 with msr := 0x4010 })
      (fun t => t.lastExc == none) = true ∧
    nextIs (exec (.addi 3 0 7) u32) (fun t => t.lastExc == none) = true := by decide +kernel

end Sys2Proof.Tests
end

/-! What no step changes (spec 00_scope.md R5): the implementation's parameters, and FEX and VX as
they stand in FPSCR. First the rules by which a postcondition passes the guards of an instruction,
for any postcondition; then what each shared operation leaves; then the instructions and the step. -/

namespace Sys2Proof.Machine

/-! ## Postconditions of an outcome -/

/-- Every next state that the outcome can be has the property. -/
def Ensures (r : Result) (P : State → Prop) : Prop := ∀ t, r = .next t → P t

namespace Ensures

variable {s u : State} {k : Result} {P : State → Prop}

theorem next (h : P u) : Ensures (.next u) P := by
  rintro t ⟨⟩; exact h

theorem refused (e : Refusal) : Ensures (.refused e) P := by
  rintro t ⟨⟩

theorem ifExists {there : Bool} (hx : P (s.takeProgram .illegal)) (hk : Ensures k P) :
    Ensures (s.ifExists there k) P := fun t ht => by
  obtain ⟨_, h⟩ | ⟨_, rfl⟩ := State.ifExists_next ht
  · exact hk t h
  · exact hx

theorem ifSupervisor (hx : P (s.takeProgram .privileged)) (hk : Ensures k P) :
    Ensures (s.ifSupervisor k) P := fun t ht => by
  obtain ⟨_, h⟩ | ⟨_, rfl⟩ := State.ifSupervisor_next ht
  · exact hk t h
  · exact hx

theorem ifFp (hx : P (s.take .fpUnavailable s.pc 0)) (hk : Ensures k P) :
    Ensures (s.ifFp k) P := fun t ht => by
  obtain ⟨_, h⟩ | ⟨_, rfl⟩ := State.ifFp_next ht
  · exact hk t h
  · exact hx

theorem ifCompareForm {l : Bool} (hk : Ensures k P) : Ensures (s.ifCompareForm l k) P :=
  fun t ht => hk t (State.ifCompareForm_next ht).2

theorem trapIf {c : Bool} (hx : P (s.takeProgram .trap)) (ha : P s.advance) :
    Ensures (s.trapIf c) P := by
  cases c
  · exact next ha
  · exact next hx

theorem undefinedSpr (hi : P (s.takeProgram .illegal)) (hp : P (s.takeProgram .privileged)) :
    Ensures s.undefinedSpr P := fun t ht => by
  obtain rfl | rfl := State.undefinedSpr_next ht
  · exact hi
  · exact hp

theorem fpDone (hx : P (u.takeProgram .fpEnabled)) (ha : P u.advance) : Ensures u.fpDone P := by
  obtain ⟨_, _, h⟩ | ⟨_, h⟩ := State.fpDone_cases u
  · exact h ▸ next hx
  · exact h ▸ next ha

theorem afterMsrChange (hx : ∀ info, P (u.take (.program .fpEnabled) u.pc info)) (hu : P u) :
    Ensures (s.afterMsrChange u) P := fun t ht => by
  obtain rfl | ⟨_, _, rfl⟩ := State.afterMsrChange_next ht
  · exact hu
  · exact hx _

theorem onAccess {a : Access} {f : List DWord → State → Result}
    (hf : ∀ pas marks, a = .ready pas marks → Ensures (f pas (s.markPages marks).clobberData) P)
    (hd : ∀ dar cause, P (s.takeDsi dar cause)) (ha : ∀ dar, P (s.takeAlignment dar))
    (hm : P s.takeMachineCheck) : Ensures (s.onAccess a f) P := fun t ht => by
  obtain ⟨pas, marks, hr, h⟩ | ⟨dar, cause, _, rfl⟩ | ⟨dar, _, rfl⟩ | ⟨_, _, rfl⟩ :=
    State.onAccess_next ht
  · exact hf pas marks hr t h
  · exact hd dar cause
  · exact ha dar
  · exact hm

end Ensures

/-! ## What stays -/

/-- A move to FPSCR leaves FEX and VX (R300 c): its mask leaves them out, and XX is neither. -/
theorem fpscrMoved_and_computed (f mask v : Word) :
    fpscrMoved f mask v &&& fpscrComputed = f &&& fpscrComputed := by
  apply BitVec.eq_of_getLsbD_eq
  intro b _
  rw [BitVec.getLsbD_and, BitVec.getLsbD_and, fpscrMoved_getLsbD]
  cases hc : fpscrComputed.getLsbD b
  · simp
  · have hb : b ≠ 25 := by rintro rfl; exact absurd hc (by decide)
    simp [hb, hc]

/-- `t` has the parameters of `s`, and FEX and VX as they stand in its FPSCR. -/
structure State.SameConstants (s t : State) : Prop where
  cfg : t.cfg = s.cfg
  computed : t.fpscr &&& fpscrComputed = s.fpscr &&& fpscrComputed

namespace State.SameConstants

variable {s t u : State}

theorem trans (h : s.SameConstants t) (h' : t.SameConstants u) : s.SameConstants u :=
  ⟨h'.cfg.trans h.cfg, h'.computed.trans h.computed⟩

theorem writeFpscr (s : State) (mask v : Word) : s.SameConstants (s.writeFpscr mask v) :=
  ⟨rfl, fpscrMoved_and_computed s.fpscr mask v⟩

theorem recordCr1 (s : State) (rc : Bool) : s.SameConstants (s.recordCr1 rc) :=
  ⟨by simp, by simp⟩

theorem arith (s : State) (rd : RegNum) (r : DWord) (oe ov rc undef : Bool) :
    s.SameConstants (s.arith rd r oe ov rc undef) := by
  rw [State.arith_eq]; exact ⟨rfl, rfl⟩

theorem loadString (s : State) (r : RegNum) (bs : List Byte) :
    s.SameConstants (s.loadString r bs) := by
  rw [State.loadString_eq]; exact ⟨rfl, rfl⟩

theorem writeSpr (s : State) (r : Spr) (v : DWord) : s.SameConstants (s.writeSpr r v) := by
  cases r <;> exact ⟨rfl, rfl⟩

theorem takeMachineCheck (s : State) : s.SameConstants s.takeMachineCheck := by
  obtain ⟨_, h⟩ | ⟨_, h⟩ := State.takeMachineCheck_cases s
  · rw [h]; exact ⟨rfl, rfl⟩
  · rw [h]; exact ⟨rfl, rfl⟩

theorem clobberFetch (s : State) : s.SameConstants s.clobberFetch := by
  rw [State.clobberFetch_eq]; exact ⟨rfl, rfl⟩

/-- What a data access marks and clobbers before the instruction's own effect. -/
theorem accessed (s : State) (marks : List Host.Cell) :
    s.SameConstants (s.markPages marks).clobberData := by
  rw [State.clobberData_eq]; exact ⟨rfl, rfl⟩

end State.SameConstants

/-! ## The instructions -/

/-- The end of an instruction of FPSCR, the enabled exception taken or not. -/
theorem fpDone_sameConstants {s u : State} (h : s.SameConstants u) :
    Ensures u.fpDone s.SameConstants :=
  .fpDone (h.trans ⟨rfl, rfl⟩) (h.trans ⟨rfl, rfl⟩)

/-- A move to FPSCR and its record form. -/
theorem fpscrMove_sameConstants (s : State) (mask v : Word) (rc : Bool) :
    Ensures (s.ifFp ((s.writeFpscr mask v).recordCr1 rc).fpDone) s.SameConstants :=
  have h : s.SameConstants ((s.writeFpscr mask v).recordCr1 rc) :=
    (State.SameConstants.writeFpscr s mask v).trans (.recordCr1 _ rc)
  .ifFp ⟨rfl, rfl⟩ (fpDone_sameConstants h)

theorem afterMsrChange_sameConstants {s t : State} (h : s.SameConstants t) :
    Ensures (s.afterMsrChange t) s.SameConstants :=
  .afterMsrChange (fun _ => h.trans ⟨rfl, rfl⟩) h

theorem moveToMsr_sameConstants (s : State) (m : DWord) :
    Ensures (s.moveToMsr m) s.SameConstants := by
  unfold State.moveToMsr
  split
  · exact .refused _
  · exact afterMsrChange_sameConstants ⟨rfl, rfl⟩

/-- A data access whose effect on the accessed state leaves the constants; each of its exceptions
leaves them too. -/
theorem onAccess_sameConstants {s : State} {a : Access} {f : List DWord → State → Result}
    (hf : ∀ pas t, Ensures (f pas t) t.SameConstants) :
    Ensures (s.onAccess a f) s.SameConstants :=
  .onAccess (fun pas marks _ u hu => (State.SameConstants.accessed s marks).trans (hf pas _ u hu))
    (fun _ _ => ⟨rfl, rfl⟩) (fun _ => ⟨rfl, rfl⟩) (.takeMachineCheck s)

theorem execMtspr_sameConstants (rs : RegNum) (n : BitVec 10) (s : State) :
    Ensures (execMtspr rs n s) s.SameConstants := by
  unfold execMtspr
  split
  · exact .next ⟨rfl, rfl⟩
  · split
    · exact .undefinedSpr ⟨rfl, rfl⟩ ⟨rfl, rfl⟩
    · split
      · exact .refused _
      · exact .next ((State.SameConstants.writeSpr s _ _).trans ⟨rfl, rfl⟩)

theorem execMfspr_sameConstants (rd : RegNum) (n : BitVec 10) (s : State) :
    Ensures (execMfspr rd n s) s.SameConstants := by
  unfold execMfspr
  split
  · exact .next ⟨rfl, rfl⟩
  · split
    · exact .undefinedSpr ⟨rfl, rfl⟩ ⟨rfl, rfl⟩
    · exact .next ⟨rfl, rfl⟩

theorem execMftb_sameConstants (rd : RegNum) (n : BitVec 10) (s : State) :
    Ensures (execMftb rd n s) s.SameConstants := by
  unfold execMftb
  split
  · exact .next ⟨rfl, rfl⟩
  · split
    · exact .next ⟨rfl, rfl⟩
    · exact .undefinedSpr ⟨rfl, rfl⟩ ⟨rfl, rfl⟩

theorem execBcctr_sameConstants (bo bi : BitVec 5) (lk : Bool) (s : State) :
    Ensures (execBcctr bo bi lk s) s.SameConstants := by
  unfold execBcctr
  split
  · exact .next ⟨rfl, rfl⟩
  · exact .refused _

theorem execLwz_sameConstants (rd ra : RegNum) (d : BitVec 16) (s : State) :
    Ensures (execLwz rd ra d s) s.SameConstants := by
  unfold execLwz
  exact onAccess_sameConstants fun _ _ => .next ⟨rfl, rfl⟩

theorem execLswx_sameConstants (rd ra rb : RegNum) (s : State) :
    Ensures (execLswx rd ra rb s) s.SameConstants := by
  unfold execLswx
  split
  · exact .refused _
  · split
    · exact .next ⟨rfl, rfl⟩
    · exact onAccess_sameConstants fun _ t =>
        .next ((State.SameConstants.loadString t _ _).trans ⟨rfl, rfl⟩)

theorem execStswx_sameConstants (rs ra rb : RegNum) (s : State) :
    Ensures (execStswx rs ra rb s) s.SameConstants := by
  unfold execStswx
  split
  · exact .next ⟨rfl, rfl⟩
  · exact onAccess_sameConstants fun _ _ => .next ⟨rfl, rfl⟩

/-- No instruction changes the parameters, nor FEX or VX as they stand in FPSCR. -/
theorem exec_sameConstants (i : Instr) (s : State) : Ensures (exec i s) s.SameConstants := by
  cases i with
  | addi | bc | sc | b | mcrf | bclr | crnor | crandc | crxor | crnand | crand | creqv | crorc
  | cror | mfcr | mtcrf | mcrxr | sync => exact .next ⟨rfl, rfl⟩
  | tw | twi => exact .trapIf ⟨rfl, rfl⟩ ⟨rfl, rfl⟩
  | cmp | cmpi | cmpl | cmpli => exact .ifCompareForm (.next ⟨rfl, rfl⟩)
  | andiDot | andisDot | mulhw | mulhwu | mullw | divw | divwu => exact .next (.arith s _ _ _ _ _ _)
  | addicDot | subfc =>
    exact .next (State.SameConstants.trans (t := s.setCa _) ⟨rfl, rfl⟩ (.arith _ _ _ _ _ _ _))
  | mulld | divd | divdu => exact .ifExists ⟨rfl, rfl⟩ (.next (.arith s _ _ _ _ _ _))
  | mfmsr | tlbie => exact .ifSupervisor ⟨rfl, rfl⟩ (.next ⟨rfl, rfl⟩)
  | mtsr | mtsrin | mfsr | mfsrin | tlbia | slbie | slbia =>
    exact .ifExists ⟨rfl, rfl⟩ (.ifSupervisor ⟨rfl, rfl⟩ (.next ⟨rfl, rfl⟩))
  | mtmsr | mtmsrd =>
    exact .ifExists ⟨rfl, rfl⟩ (.ifSupervisor ⟨rfl, rfl⟩ (moveToMsr_sameConstants s _))
  | rfi | rfid =>
    exact .ifExists ⟨rfl, rfl⟩ (.ifSupervisor ⟨rfl, rfl⟩ (afterMsrChange_sameConstants ⟨rfl, rfl⟩))
  | mtspr rs n => exact execMtspr_sameConstants rs n s
  | mfspr rd n => exact execMfspr_sameConstants rd n s
  | mftb rd n => exact execMftb_sameConstants rd n s
  | bcctr bo bi lk => exact execBcctr_sameConstants bo bi lk s
  | lwz rd ra d => exact execLwz_sameConstants rd ra d s
  | lswx rd ra rb => exact execLswx_sameConstants rd ra rb s
  | stswx rs ra rb => exact execStswx_sameConstants rs ra rb s
  | eciwx | ecowx =>
    exact .ifExists ⟨rfl, rfl⟩ (onAccess_sameConstants fun _ _ => .next ⟨rfl, rfl⟩)
  | mtfsb0 | mtfsb1 | mtfsfi | mtfsf => exact fpscrMove_sameConstants s _ _ _
  | mcrfs crfD crfS =>
    exact .ifFp ⟨rfl, rfl⟩ (fpDone_sameConstants
      (State.SameConstants.trans (t := s.setCrField _ _) ⟨rfl, rfl⟩ (.writeFpscr _ _ _)))
  | mffs frd rc =>
    exact .ifFp ⟨rfl, rfl⟩ (fpDone_sameConstants
      (State.SameConstants.trans (t := s.setFpr _ _) ⟨rfl, rfl⟩ (.recordCr1 _ rc)))

/-! ## The step -/

/-- A boundary that runs an instruction: its fetch, its effect and its trace. -/
theorem runInstr_sameConstants (s : State) : Ensures s.runInstr s.SameConstants := fun u hu => by
  obtain ⟨info, _, rfl⟩ | ⟨_, ha⟩ | ⟨w, i, _, _, hi⟩ := State.runInstr_next hu
  · exact ⟨rfl, rfl⟩
  · obtain ⟨_, rfl⟩ := State.absentMemory_next ha
    exact .takeMachineCheck s
  · obtain ⟨v, hv, hu⟩ := State.afterInstr_next hi
    have hsv : s.SameConstants v :=
      (State.SameConstants.clobberFetch s).trans (exec_sameConstants i s.clobberFetch v hv)
    obtain rfl | ⟨_, _, _, rfl⟩ := hu
    · exact hsv
    · exact hsv.trans ⟨rfl, rfl⟩

/-- A step is a hard reset, which keeps the parameters, or it keeps FEX and VX too. -/
theorem step_hardReset_or_sameConstants {s t : State} (h : step s = .next t) :
    t = s.atBoundary.hardReset ∨ s.SameConstants t := by
  have hb : s.SameConstants s.atBoundary := ⟨rfl, rfl⟩
  obtain ⟨_, rfl⟩ | ⟨_, rfl⟩ | ⟨_, ⟨_, _, rfl⟩ | ⟨_, _, _, ⟨_, rfl⟩ | ⟨_, h⟩⟩⟩ :=
    State.boundary_next h
  · exact .inl rfl
  · exact .inr (hb.trans ⟨rfl, rfl⟩)
  · exact .inr hb
  · exact .inr (hb.trans (.takeMachineCheck _))
  · obtain ⟨_, _, rfl⟩ | ⟨_, _, _, rfl⟩ | ⟨_, _, hr⟩ := h
    · exact .inr (hb.trans ⟨rfl, rfl⟩)
    · exact .inr (hb.trans ⟨rfl, rfl⟩)
    · exact .inr (hb.trans (runInstr_sameConstants _ t hr))

/-- Settles O59: after a hard reset FPSCR is 0, and every other step keeps FEX and VX as they
stand. -/
theorem stepKeepsParameters : Obligations.StepKeepsParameters := by
  intro s t h
  obtain rfl | hc := step_hardReset_or_sameConstants h
  · exact ⟨rfl, fun _ => BitVec.zero_and⟩
  · exact ⟨hc.cfg, fun hz => hc.computed.trans hz⟩

end Sys2Proof.Machine

/-! The numbers of the special-purpose registers (spec 10_state.md R30, R41; 40_spr_access.md R255,
R257). -/

namespace Sys2Proof.Machine

open Statements

/-- A number names a register exactly where R30 and R41 list it. -/
theorem sprNamed_iff {c : Config} {n : BitVec 10} {r : Spr} :
    sprNamed c n = some r ↔ sprNumber c n r := by
  constructor
  · intro h
    unfold sprNamed at h
    unfold sprNumber sprAlways sprOptional
    split at h
    case h_38 => cases h
    all_goals simp_all
  · have always : ∀ p ∈ sprAlways, sprNamed c (BitVec.ofNat 10 p.1) = some p.2 := by
      simp [sprAlways, sprNamed]
    have optional : ∀ p ∈ sprOptional c, p.1 = true →
        sprNamed c (BitVec.ofNat 10 p.2.1) = some p.2.2 := by
      simp +contextual [sprOptional, sprNamed]
    rintro (h | h)
    · simpa using always _ h
    · simpa using optional _ h rfl

theorem sprReadable_iff {c : Config} {n : BitVec 10} {r : Spr} :
    sprReadable c n = some r ↔ sprNamed c n = some r ∧ r ≠ .tbl ∧ r ≠ .tbu := by
  unfold sprReadable
  cases h : sprNamed c n with
  | none => simp
  | some q => cases q <;> simp <;> rintro rfl <;> simp

theorem sprWritable_iff {c : Config} {n : BitVec 10} {r : Spr} :
    sprWritable c n = some r ↔ sprNamed c n = some r ∧ r ≠ .pvr := by
  unfold sprWritable
  cases h : sprNamed c n with
  | none => simp
  | some q => cases q <;> simp <;> rintro rfl <;> simp

/-- The three registers that only one of the two moves reaches (R257), by their numbers. -/
theorem sprNumber_oneWay {c : Config} {n : BitVec 10} {r : Spr} (h : sprNumber c n r) :
    (r = .tbl ↔ n.toNat = 284) ∧ (r = .tbu ↔ n.toNat = 285) ∧ (r = .pvr ↔ n.toNat = 287) := by
  have always : ∀ p ∈ sprAlways, (p.2 = .tbl ↔ p.1 = 284) ∧ (p.2 = .tbu ↔ p.1 = 285) ∧
      (p.2 = .pvr ↔ p.1 = 287) := by decide
  have optional : ∀ p ∈ sprOptional c, (p.2.2 = .tbl ↔ p.2.1 = 284) ∧
      (p.2.2 = .tbu ↔ p.2.1 = 285) ∧ (p.2.2 = .pvr ↔ p.2.1 = 287) := by
    simp [sprOptional]
  exact h.elim (always _) (optional _)

/-- The numbers with n[4] = 0 are those of XER, LR and CTR (R255). -/
theorem sprNumber_user_iff {c : Config} {n : BitVec 10} {r : Spr} (h : sprNumber c n r) :
    (n.getLsbD 4 = false ↔ n.toNat = 1 ∨ n.toNat = 8 ∨ n.toNat = 9) ∧
      (n.getLsbD 4 = false → r = .xer ∨ r = .lr ∨ r = .ctr) := by
  have always : ∀ p ∈ sprAlways, (p.1.testBit 4 = false ↔ p.1 = 1 ∨ p.1 = 8 ∨ p.1 = 9) ∧
      (p.1.testBit 4 = false → p.2 = .xer ∨ p.2 = .lr ∨ p.2 = .ctr) := by decide
  have optional : ∀ p ∈ sprOptional c,
      (p.2.1.testBit 4 = false ↔ p.2.1 = 1 ∨ p.2.1 = 8 ∨ p.2.1 = 9) ∧
        (p.2.1.testBit 4 = false → p.2.2 = .xer ∨ p.2.2 = .lr ∨ p.2.2 = .ctr) := by
    simp [sprOptional, Nat.testBit]
  exact h.elim (always _) (optional _)

end Sys2Proof.Machine

/-! What an instruction can do to the state, said once: every next state of `exec` is reached by the
few updates of `State.Effect`, and every next state of `step` by a hard reset or by such updates after
the boundary and the fetch. An invariant is then proved update by update. -/

namespace Sys2Proof.Machine

open Statements (accessesData)

/-! ## The updates -/

/-- One update that an instruction or an exception entry is made of; `data` allows those that only a
data access makes. -/
inductive State.Effect (data : Bool) : State → State → Prop where
  | flags (s : State) (cr xer fpscr : Word) :
      Effect data s { s with cr := cr, xer := xer, fpscr := fpscr }
  | setGpr (s : State) (r : RegNum) (v : DWord) : Effect data s (s.setGpr r v)
  | setFpr (s : State) (r : RegNum) (v : DWord) : Effect data s (s.setFpr r v)
  | advance (s : State) : Effect data s s.advance
  | branch (s : State) (lk taken : Bool) (v : DWord) {ctr : DWord}
      (hctr : ctr = s.ctr ∨ ctr = s.x (s.ctr - 1#64)) :
      Effect data s (s.branchEnd ctr lk taken (s.registerTarget v))
  | setSr (s : State) (i : BitVec 4) (w : Word) (hu : s.user = false) : Effect data s (s.setSr i w)
  | writeSpr (s : State) (r : Spr) (v : DWord)
      (hu : s.user = true → r = .xer ∨ r = .lr ∨ r = .ctr) : Effect data s (s.writeSpr r v)
  | moveMsr (s : State) (m : DWord) (hu : s.user = false) :
      Effect data s { s with msr := s.x m, pc := State.ea { s with msr := s.x m } s.nextPc }
  | returnTo (s : State) (m : DWord) (hu : s.user = false) : Effect data s (s.returnTo m)
  | take (s : State) (e : Exc) (a info : DWord) : Effect data s (s.take e a info)
  /-- A DSI or an alignment exception. -/
  | takeAccess (s : State) (e : Exc) (ea : DWord) (cause : Word) :
      Effect data s { s.take e s.pc 0 with dar := s.ea ea, dsisr := cause }
  | checkstop (s : State) (b : Bool) : Effect data s { s with checkstop := b }
  | access (s : State) (marks : List Host.Cell) (hd : data = true) :
      Effect data s (s.markPages marks).clobberData
  | storeBytes (s : State) (pas : List DWord) (bytes : List Byte) :
      Effect data s (s.storeBytes pas bytes)
  | external (s : State) (replies : List Word) (sent : List ExtMessage) :
      Effect data s { s with extReplies := replies, extSent := sent }

/-- `t` is reached from `s` by a sequence of updates. -/
def State.Reaches (s : State) (data : Bool) (t : State) : Prop :=
  Relation.ReflTransGen (State.Effect data) s t

namespace State.Reaches

variable {s t u : State} {data : Bool}

theorem refl (s : State) (data : Bool) : s.Reaches data s := Relation.ReflTransGen.refl

theorem one (h : State.Effect data s t) : s.Reaches data t := Relation.ReflTransGen.single h

theorem trans (h : s.Reaches data t) (h' : t.Reaches data u) : s.Reaches data u :=
  Relation.ReflTransGen.trans h h'

theorem next (h : s.Reaches data t) (h' : State.Effect data t u) : s.Reaches data u :=
  Relation.ReflTransGen.tail h h'

/-- What every update keeps, a sequence of updates keeps. -/
theorem keeps {Inv : State → Prop} (hstep : ∀ t u, State.Effect data t u → Inv t → Inv u)
    (h : s.Reaches data t) (hs : Inv s) : Inv t := by
  induction h with
  | refl => exact hs
  | tail _ htu ih => exact hstep _ _ htu ih

/-! ## What the shared operations reach -/

theorem flagsAdvance (s : State) (cr xer fpscr : Word) :
    s.Reaches data { s with cr := cr, xer := xer, fpscr := fpscr }.advance :=
  (one (.flags s cr xer fpscr)).next (.advance _)

theorem setGprAdvance (s : State) (r : RegNum) (v : DWord) :
    s.Reaches data (s.setGpr r v).advance :=
  (one (.setGpr s r v)).next (.advance _)

theorem arith (s : State) (rd : RegNum) (r : DWord) (oe ov rc undef : Bool) :
    s.Reaches data (s.arith rd r oe ov rc undef) := by
  rw [State.arith_eq]
  exact (one (.setGpr s rd r)).trans
    (flagsAdvance (s.setGpr rd r) (s.arith rd r oe ov rc undef).cr
      (s.arith rd r oe ov rc undef).xer s.fpscr)

theorem setCrField (s : State) (n : FieldNum) (v : BitVec 4) :
    s.Reaches data (s.setCrField n v) :=
  one (.flags s (setField4 s.cr n v) s.xer s.fpscr)

theorem writeFpscr (s : State) (mask v : Word) : s.Reaches data (s.writeFpscr mask v) :=
  one (.flags s s.cr s.xer (fpscrMoved s.fpscr mask v))

theorem recordCr1 (s : State) (rc : Bool) : s.Reaches data (s.recordCr1 rc) := by
  cases rc
  · exact refl s data
  · exact setCrField s _ _

theorem loadString : ∀ (bs : List Byte) (s : State) (r : RegNum),
    s.Reaches data (s.loadString r bs)
  | [], s, _ => refl s data
  | [_], s, _ => one (.setGpr s _ _)
  | [_, _], s, _ => one (.setGpr s _ _)
  | [_, _, _], s, _ => one (.setGpr s _ _)
  | _ :: _ :: _ :: _ :: rest, s, _ => (one (.setGpr s _ _)).trans (loadString rest _ _)

theorem takeMachineCheck (s : State) : s.Reaches data s.takeMachineCheck := by
  obtain ⟨_, h⟩ | ⟨_, h⟩ := State.takeMachineCheck_cases s
  · exact h ▸ one (.take s _ _ _)
  · exact h ▸ one (.checkstop s true)

end State.Reaches

/-! ## The instructions -/

open State.Reaches (one)

/-- An instruction of FPSCR ends in the enabled exception or moves on. -/
theorem fpDone_reaches {s u : State} {data : Bool} (h : s.Reaches data u) :
    Ensures u.fpDone (s.Reaches data) :=
  .fpDone (h.next (.take _ _ _ _)) (h.next (.advance _))

/-- A move to FPSCR and its record form. -/
theorem fpscrMove_reaches (s : State) (data : Bool) (mask v : Word) (rc : Bool) :
    Ensures (s.ifFp ((s.writeFpscr mask v).recordCr1 rc).fpDone) (s.Reaches data) :=
  .ifFp (one (.take s _ _ _)) (fpDone_reaches
    ((State.Reaches.writeFpscr s mask v).trans (.recordCr1 _ rc)))

theorem afterMsrChange_reaches {s t : State} {data : Bool} (h : s.Reaches data t) :
    Ensures (s.afterMsrChange t) (s.Reaches data) :=
  .afterMsrChange (fun _ => h.next (.take _ _ _ _)) h

/-- A supervisor-level instruction, whose effect may use that it runs at supervisor level. -/
theorem ifSupervisor_reaches {s : State} {data : Bool} {k : Result}
    (hk : s.user = false → Ensures k (s.Reaches data)) :
    Ensures (s.ifSupervisor k) (s.Reaches data) := fun t ht => by
  obtain ⟨hu, h⟩ | ⟨_, rfl⟩ := State.ifSupervisor_next ht
  · exact hk hu t h
  · exact one (.take s _ _ _)

theorem moveToMsr_reaches {s : State} (data : Bool) (m : DWord) (hu : s.user = false) :
    Ensures (s.moveToMsr m) (s.Reaches data) := by
  unfold State.moveToMsr
  split
  · exact .refused _
  · exact afterMsrChange_reaches (one (.moveMsr s m hu))

/-- A data access whose effect on the accessed state is made of updates. -/
theorem onAccess_reaches {s : State} {a : Access} {f : List DWord → State → Result}
    (hf : ∀ pas t, Ensures (f pas t) (t.Reaches true)) :
    Ensures (s.onAccess a f) (s.Reaches true) :=
  .onAccess
    (fun pas marks _ u hu => (one (.access s marks rfl)).trans (hf pas _ u hu))
    (fun dar cause => one (.takeAccess s .dsi dar cause))
    (fun dar => one (.takeAccess s .alignment dar _)) (.takeMachineCheck s)

theorem execMtspr_reaches (rs : RegNum) (n : BitVec 10) (s : State) (data : Bool) :
    Ensures (execMtspr rs n s) (s.Reaches data) := by
  unfold execMtspr
  split
  · exact .next (one (.take s _ _ _))
  · rename_i hp
    split
    · exact .undefinedSpr (one (.take s _ _ _)) (one (.take s _ _ _))
    · rename_i r hr
      split
      · exact .refused _
      · have hu : s.user = true → r = .xer ∨ r = .lr ∨ r = .ctr := fun hu =>
          (sprNumber_user_iff (sprNamed_iff.mp (sprWritable_iff.mp hr).1)).2
            (by simpa [hu, sprPrivileged] using hp)
        exact .next ((one (.writeSpr s r _ hu)).next (.advance _))

theorem execMfspr_reaches (rd : RegNum) (n : BitVec 10) (s : State) (data : Bool) :
    Ensures (execMfspr rd n s) (s.Reaches data) := by
  unfold execMfspr
  split
  · exact .next (one (.take s _ _ _))
  · split
    · exact .undefinedSpr (one (.take s _ _ _)) (one (.take s _ _ _))
    · exact .next (.setGprAdvance s rd _)

theorem execMftb_reaches (rd : RegNum) (n : BitVec 10) (s : State) (data : Bool) :
    Ensures (execMftb rd n s) (s.Reaches data) := by
  unfold execMftb
  split
  · exact .next (.setGprAdvance s rd _)
  · split
    · exact .next (.setGprAdvance s rd _)
    · exact .undefinedSpr (one (.take s _ _ _)) (one (.take s _ _ _))

theorem State.branchCtr_cases (s : State) (bo : BitVec 5) :
    s.branchCtr bo = s.ctr ∨ s.branchCtr bo = s.x (s.ctr - 1#64) := by
  unfold State.branchCtr
  split
  · exact .inl rfl
  · exact .inr rfl

theorem execBcctr_reaches (bo bi : BitVec 5) (lk : Bool) (s : State) (data : Bool) :
    Ensures (execBcctr bo bi lk s) (s.Reaches data) := by
  unfold execBcctr
  split
  · exact .next (one (.branch s lk _ s.ctr (.inl rfl)))
  · exact .refused _

theorem execLwz_reaches (rd ra : RegNum) (d : BitVec 16) (s : State) :
    Ensures (execLwz rd ra d s) (s.Reaches true) := by
  unfold execLwz
  exact onAccess_reaches fun _ t => .next (.setGprAdvance t rd _)

theorem execLswx_reaches (rd ra rb : RegNum) (s : State) :
    Ensures (execLswx rd ra rb s) (s.Reaches true) := by
  unfold execLswx
  split
  · exact .refused _
  · split
    · exact .next (.setGprAdvance s rd _)
    · exact onAccess_reaches fun _ t => .next ((State.Reaches.loadString _ t _).next (.advance _))

theorem execStswx_reaches (rs ra rb : RegNum) (s : State) :
    Ensures (execStswx rs ra rb s) (s.Reaches true) := by
  unfold execStswx
  split
  · exact .next (one (.advance s))
  · exact onAccess_reaches fun _ t => .next ((one (.storeBytes t _ _)).next (.advance _))

/-- What every instruction does to the state is a sequence of updates. -/
theorem exec_reaches (i : Instr) (s : State) : Ensures (exec i s) (s.Reaches (accessesData i)) := by
  cases i with
  | addi | mfcr => exact .next (.setGprAdvance s _ _)
  | mcrf | crnor | crandc | crxor | crnand | crand | creqv | crorc | cror | mtcrf =>
    exact .next (.flagsAdvance s _ s.xer s.fpscr)
  | mcrxr => exact .next (.flagsAdvance s _ _ s.fpscr)
  | b => exact .next (one (.branch s _ _ _ (.inl rfl)))
  | bc | bclr => exact .next (one (.branch s _ _ _ (s.branchCtr_cases _)))
  | bcctr bo bi lk => exact execBcctr_reaches bo bi lk s _
  | sc => exact .next (one (.take s _ _ _))
  | sync => exact .next (one (.advance s))
  | tw | twi => exact .trapIf (one (.take s _ _ _)) (one (.advance s))
  | cmp | cmpi | cmpl | cmpli =>
    exact .ifCompareForm (.next (.flagsAdvance s _ s.xer s.fpscr))
  | andiDot | andisDot | mulhw | mulhwu | mullw | divw | divwu => exact .next (.arith s _ _ _ _ _ _)
  | addicDot | subfc =>
    exact .next ((one (.flags s s.cr _ s.fpscr)).trans (.arith _ _ _ _ _ _ _))
  | mulld | divd | divdu => exact .ifExists (one (.take s _ _ _)) (.next (.arith s _ _ _ _ _ _))
  | mfmsr => exact ifSupervisor_reaches fun _ => .next (.setGprAdvance s _ _)
  | tlbie => exact ifSupervisor_reaches fun _ => .next (one (.advance s))
  | tlbia | slbie | slbia =>
    exact .ifExists (one (.take s _ _ _)) (ifSupervisor_reaches fun _ => .next (one (.advance s)))
  | mtsr | mtsrin =>
    exact .ifExists (one (.take s _ _ _)) (ifSupervisor_reaches fun hu =>
      .next ((one (.setSr s _ _ hu)).next (.advance _)))
  | mfsr | mfsrin =>
    exact .ifExists (one (.take s _ _ _)) (ifSupervisor_reaches fun _ =>
      .next (.setGprAdvance s _ _))
  | mtmsr | mtmsrd =>
    exact .ifExists (one (.take s _ _ _)) (ifSupervisor_reaches fun hu =>
      moveToMsr_reaches _ _ hu)
  | rfi | rfid =>
    exact .ifExists (one (.take s _ _ _)) (ifSupervisor_reaches fun hu =>
      afterMsrChange_reaches (one (.returnTo s _ hu)))
  | mtspr rs n => exact execMtspr_reaches rs n s _
  | mfspr rd n => exact execMfspr_reaches rd n s _
  | mftb rd n => exact execMftb_reaches rd n s _
  | lwz rd ra d => exact execLwz_reaches rd ra d s
  | lswx rd ra rb => exact execLswx_reaches rd ra rb s
  | stswx rs ra rb => exact execStswx_reaches rs ra rb s
  | eciwx =>
    exact .ifExists (one (.take s _ _ _)) (onAccess_reaches fun _ t =>
      .next ((one (.external t _ _)).trans (.setGprAdvance _ _ _)))
  | ecowx =>
    exact .ifExists (one (.take s _ _ _)) (onAccess_reaches fun _ t =>
      .next ((one (.external t t.extReplies _)).next (.advance _)))
  | mtfsb0 | mtfsb1 | mtfsfi | mtfsf => exact fpscrMove_reaches s _ _ _ _
  | mcrfs =>
    exact .ifFp (one (.take s _ _ _)) (fpDone_reaches
      ((State.Reaches.setCrField s _ _).trans (.writeFpscr (s.setCrField _ _) _ _)))
  | mffs frd rc =>
    exact .ifFp (one (.take s _ _ _)) (fpDone_reaches
      ((one (.setFpr s _ _)).trans (.recordCr1 (s.setFpr frd _) rc)))

/-! ## The step -/

/-- More updates are allowed with data accesses. -/
theorem State.Effect.withData {data : Bool} {s t : State} (h : State.Effect data s t) :
    State.Effect true s t := by
  cases h with
  | flags => exact .flags s _ _ _
  | setGpr => exact .setGpr s _ _
  | setFpr => exact .setFpr s _ _
  | advance => exact .advance s
  | branch lk taken v hctr => exact .branch s lk taken v hctr
  | setSr i w hu => exact .setSr s i w hu
  | writeSpr r v hu => exact .writeSpr s r v hu
  | moveMsr m hu => exact .moveMsr s m hu
  | returnTo m hu => exact .returnTo s m hu
  | take => exact .take s _ _ _
  | takeAccess => exact .takeAccess s _ _ _
  | checkstop => exact .checkstop s _
  | access marks => exact .access s marks rfl
  | storeBytes => exact .storeBytes s _ _
  | external => exact .external s _ _

theorem State.Reaches.withData {data : Bool} {s t : State} (h : s.Reaches data t) :
    s.Reaches true t :=
  Relation.ReflTransGen.mono (fun _ _ => State.Effect.withData) _ _ h

/-- A boundary that runs an instruction: updates of the state it found or of what the fetch left. -/
theorem runInstr_reaches {s t : State} (h : s.runInstr = .next t) :
    s.Reaches true t ∨ s.clobberFetch.Reaches true t := by
  obtain ⟨info, _, rfl⟩ | ⟨_, ha⟩ | ⟨w, i, _, _, hi⟩ := State.runInstr_next h
  · exact .inl (one (.take s _ _ _))
  · obtain ⟨_, rfl⟩ := State.absentMemory_next ha
    exact .inl (.takeMachineCheck s)
  · obtain ⟨v, hv, ht⟩ := State.afterInstr_next hi
    have hreach : s.clobberFetch.Reaches true v := (exec_reaches i s.clobberFetch v hv).withData
    obtain rfl | ⟨_, _, _, rfl⟩ := ht
    · exact .inr hreach
    · exact .inr (hreach.next (.take v _ _ _))

/-- A step is a hard reset, or it makes updates of the boundary state or of what the fetch left. -/
theorem step_reaches {s t : State} (h : step s = .next t) :
    t = s.atBoundary.hardReset ∨ s.atBoundary.Reaches true t ∨
      s.atBoundary.clobberFetch.Reaches true t := by
  obtain ⟨_, rfl⟩ | ⟨_, rfl⟩ | ⟨_, ⟨_, _, rfl⟩ | ⟨_, _, _, ⟨_, rfl⟩ | ⟨_, h⟩⟩⟩ :=
    State.boundary_next h
  · exact .inl rfl
  · exact .inr (.inl ((one (.take _ _ _ _)).next (.checkstop _ false)))
  · exact .inr (.inl (.refl _ _))
  · exact .inr (.inl (.takeMachineCheck _))
  · obtain ⟨_, _, rfl⟩ | ⟨_, _, _, rfl⟩ | ⟨_, _, hr⟩ := h
    · exact .inr (.inl (one (.take _ _ _ _)))
    · exact .inr (.inl (one (.take _ _ _ _)))
    · exact .inr (runInstr_reaches hr)

/-- What the boundary, a hard reset, the fetch and every update keep, every step keeps. -/
theorem step_keeps {Inv : State → Prop} (hboundary : ∀ s, Inv s → Inv s.atBoundary)
    (hreset : ∀ s, Inv s → Inv s.hardReset) (hfetch : ∀ s, Inv s → Inv s.clobberFetch)
    (heffect : ∀ s t, State.Effect true s t → Inv s → Inv t) {s t : State} (h : step s = .next t)
    (hs : Inv s) : Inv t := by
  have hb := hboundary s hs
  obtain rfl | hr | hr := step_reaches h
  · exact hreset _ hb
  · exact hr.keeps heffect hb
  · exact hr.keeps heffect (hfetch _ hb)

end Sys2Proof.Machine

/-! The invariants of pc and of the widths (spec 10_state.md R33, R166), and what user level cannot
alter (R103, R460 to R462): each is proved update by update and holds of every step or instruction by
`step_keeps` or `exec_reaches`. -/

namespace Sys2Proof.Machine

/-! ## Masks of low-order bits -/

/-- The mask that keeps the `n` low-order bits. -/
theorem getLsbD_lowMask {n i : Nat} (w : Nat) (hi : i < w) :
    (BitVec.ofNat w (2 ^ n - 1)).getLsbD i = decide (i < n) := by
  rw [BitVec.getLsbD_ofNat, Nat.testBit_two_pow_sub_one, decide_eq_true hi, Bool.true_and]

theorem and_lowMask_toNat {w k : Nat} (hk : k ≤ w) (v : BitVec w) :
    (v &&& BitVec.ofNat w (2 ^ k - 1)).toNat = v.toNat % 2 ^ k := by
  have hlt : 2 ^ k - 1 < 2 ^ w := by
    have := Nat.pow_le_pow_right (n := 2) (by decide) hk
    have := Nat.two_pow_pos k
    omega
  rw [BitVec.toNat_and, BitVec.toNat_ofNat, Nat.mod_eq_of_lt hlt, Nat.and_two_pow_sub_one_eq_mod]

/-- Clearing the `k` low-order bits. -/
theorem and_not_lowMask_toNat {w k : Nat} (hk : k ≤ w) (v : BitVec w) :
    (v &&& ~~~BitVec.ofNat w (2 ^ k - 1)).toNat = 2 ^ k * (v.toNat / 2 ^ k) := by
  have hor : (v &&& BitVec.ofNat w (2 ^ k - 1)) ||| (v &&& ~~~BitVec.ofNat w (2 ^ k - 1)) = v := by
    rw [← BitVec.and_or_distrib_left, BitVec.or_not_self, BitVec.and_allOnes]
  have hand : (v &&& BitVec.ofNat w (2 ^ k - 1)) &&& (v &&& ~~~BitVec.ofNat w (2 ^ k - 1)) = 0#w := by
    apply BitVec.eq_of_getLsbD_eq
    intro i _
    simp only [BitVec.getLsbD_and, BitVec.getLsbD_not, BitVec.getLsbD_zero]
    cases (BitVec.ofNat w (2 ^ k - 1)).getLsbD i <;> simp
  have hsum := BitVec.toNat_add_of_and_eq_zero hand
  rw [BitVec.add_eq_or_of_and_eq_zero _ _ hand, hor, and_lowMask_toNat hk] at hsum
  have := Nat.mod_add_div v.toNat (2 ^ k)
  omega

/-! ## Instruction addresses -/

theorem wordAligned_toNat (v : DWord) : (wordAligned v).toNat = 4 * (v.toNat / 4) :=
  and_not_lowMask_toNat (k := 2) (by decide) v

/-- Clearing the two low-order bits and narrowing commute. -/
theorem xlenOf_wordAligned (c : Config) (v : DWord) :
    xlenOf c (wordAligned v) = wordAligned (xlenOf c v) := by
  unfold xlenOf low wordAligned
  split
  · rfl
  · ac_rfl

/-- An effective address is as far from a multiple of 4 as the value it masks. -/
theorem State.ea_toNat_mod_four (s : State) (v : DWord) : (s.ea v).toNat % 4 = v.toNat % 4 := by
  rw [State.ea_toNat]
  split <;> omega

theorem State.pcAligned_iff (s : State) : s.pcAligned = true ↔ s.pc.toNat % 4 = 0 := by
  have h : (s.pc &&& 3#64).toNat = s.pc.toNat % 4 := and_lowMask_toNat (k := 2) (by decide) s.pc
  rw [State.pcAligned, beq_iff_eq, ← BitVec.toNat_inj, h]
  rfl

theorem State.pcInMode_iff (s : State) : s.pcInMode = true ↔ s.ea s.pc = s.pc := beq_iff_eq

theorem State.nextPc_toNat_mod_four {s : State} (h : s.pcAligned = true) :
    s.nextPc.toNat % 4 = 0 := by
  rw [State.pcAligned_iff] at h
  rw [State.nextPc, State.ea_toNat_mod_four, BitVec.toNat_add]
  simp
  omega

theorem State.registerTarget_toNat_mod_four (s : State) (v : DWord) :
    (s.registerTarget v).toNat % 4 = 0 := by
  rw [State.registerTarget, State.ea_toNat_mod_four, wordAligned_toNat]
  omega

/-- Every vector address is a multiple of 4 (R431). -/
theorem State.vector_toNat_mod_four (s : State) (e : Exc) :
    (s.vector e.offset).toNat % 4 = 0 := by
  have hoff : e.offset.toNat % 4 = 0 ∧ (0xFFFFFFFFFFF00000#64 ||| e.offset).toNat % 4 = 0 := by
    cases e <;> simp only [Exc.offset] <;> decide
  unfold State.vector State.x
  split
  · rw [xlenOf_toNat]
    split <;> omega
  · exact hoff.1

/-- pc after an entry is a multiple of 4. -/
theorem State.entryPc_toNat_mod_four (s : State) (e : Exc) : (s.entryPc e).toNat % 4 = 0 :=
  (State.ea_toNat_mod_four _ _).trans (s.vector_toNat_mod_four e)

/-! ## pc stays a multiple of 4 -/

theorem effect_keeps_pcAligned {data : Bool} {s t : State} (h : State.Effect data s t)
    (hs : s.pcAligned = true) : t.pcAligned = true := by
  cases h with
  | flags | setGpr | setFpr | setSr | checkstop | storeBytes | external => exact hs
  | writeSpr r => cases r <;> exact hs
  | access marks => rw [State.clobberData_eq]; exact hs
  | advance => exact (State.pcAligned_iff _).mpr (State.nextPc_toNat_mod_four hs)
  | branch lk taken v =>
    cases taken
    · exact (State.pcAligned_iff _).mpr (State.nextPc_toNat_mod_four hs)
    · exact (State.pcAligned_iff _).mpr (s.registerTarget_toNat_mod_four v)
  | moveMsr =>
    exact (State.pcAligned_iff _).mpr
      ((State.ea_toNat_mod_four _ _).trans (State.nextPc_toNat_mod_four hs))
  | returnTo => exact (State.pcAligned_iff _).mpr (State.registerTarget_toNat_mod_four _ s.srr0)
  | take e | takeAccess e => exact (State.pcAligned_iff _).mpr (s.entryPc_toNat_mod_four e)

theorem resetOf_pcAligned (c : Config) : (State.resetOf c).pcAligned = true := by
  rw [State.pcAligned_iff]
  show (State.resetPc c).toNat % 4 = 0
  unfold State.resetPc
  split
  · split <;> rfl
  · rfl

/-! ## In 32-bit mode the high half of pc stays 0 -/

theorem effect_keeps_pcInMode {data : Bool} {s t : State} (h : State.Effect data s t)
    (hs : s.pcInMode = true) : t.pcInMode = true := by
  cases h with
  | flags | setGpr | setFpr | setSr | checkstop | storeBytes | external => exact hs
  | writeSpr r => cases r <;> exact hs
  | access marks => rw [State.clobberData_eq]; exact hs
  | branch lk taken v => cases taken <;> exact (State.pcInMode_iff _).mpr (s.ea_ea _)
  | advance => exact (State.pcInMode_iff _).mpr (s.ea_ea _)
  | moveMsr | returnTo | take | takeAccess =>
    exact (State.pcInMode_iff _).mpr (State.ea_ea _ _)

/-- A 64-bit implementation powers up in 64-bit mode. -/
theorem resetOf_mode64 (c : Config) : (State.resetOf c).mode64 = c.xlen64 := by
  show (c.xlen64 && (State.resetMsr c).getLsbD msrSF) = c.xlen64
  cases hx : c.xlen64
  · rfl
  · simp [State.resetMsr, hx, msrSF]

theorem resetOf_pcInMode (c : Config) : (State.resetOf c).pcInMode = true := by
  rw [State.pcInMode_iff, State.ea, resetOf_mode64]
  show (if c.xlen64 then State.resetPc c else low (State.resetPc c)) = State.resetPc c
  cases hx : c.xlen64
  · cases hp : c.msrIpReset <;> simp [State.resetPc, hx, hp, low]
  · rfl

/-- Settles O57: both parts are invariants of every update, and a hard reset gives the system reset
vector. -/
theorem stepKeepsPcAligned : Obligations.StepKeepsPcAligned := by
  intro s t h
  constructor
  · refine step_keeps (Inv := fun s => s.pcAligned = true) (fun _ hs => hs)
      (fun s _ => resetOf_pcAligned s.cfg) (fun s hs => ?_) (fun _ _ => effect_keeps_pcAligned) h
    rw [State.clobberFetch_eq]
    exact hs
  · refine step_keeps (Inv := fun s => s.pcInMode = true) (fun _ hs => hs)
      (fun s _ => resetOf_pcInMode s.cfg) (fun s hs => ?_) (fun _ _ => effect_keeps_pcInMode) h
    rw [State.clobberFetch_eq]
    exact hs

/-! ## Widths -/

theorem narrow_iff {c : Config} {v : DWord} : narrow c v = true ↔ xlenOf c v = v := beq_iff_eq

@[simp] theorem narrow_xlenOf (c : Config) (v : DWord) : narrow c (xlenOf c v) = true :=
  narrow_iff.mpr (xlenOf_xlenOf c v)

theorem State.narrow_ea (s : State) (v : DWord) : narrow s.cfg (s.ea v) = true :=
  narrow_iff.mpr (s.x_ea v)

theorem State.narrow_wordAligned_ea (s : State) (v : DWord) :
    narrow s.cfg (wordAligned (s.ea v)) = true := by
  rw [narrow_iff, xlenOf_wordAligned]
  exact congrArg wordAligned (s.x_ea v)

/-- Every element of a register file fits. -/
def narrowAll {n : Nat} (c : Config) (v : Vector DWord n) : Bool := v.toList.all (narrow c)

theorem narrowAll_set {n : Nat} {c : Config} {v : Vector DWord n} {x : DWord} {i : Nat} (hi : i < n)
    (hv : narrowAll c v = true) (hx : narrow c x = true) : narrowAll c (v.set i x hi) = true := by
  rw [narrowAll, List.all_eq_true] at hv ⊢
  intro y hy
  rw [Vector.toList_set] at hy
  obtain hy | rfl := List.mem_or_eq_of_mem_set hy
  · exact hv y hy
  · exact hx

/-- The widths, register by register. -/
structure State.Widths (s : State) : Prop where
  gpr : narrowAll s.cfg s.gpr = true
  lr : narrow s.cfg s.lr = true
  ctr : narrow s.cfg s.ctr = true
  msr : narrow s.cfg s.msr = true
  ibatU : narrowAll s.cfg s.ibatU = true
  ibatL : narrowAll s.cfg s.ibatL = true
  dbatU : narrowAll s.cfg s.dbatU = true
  dbatL : narrowAll s.cfg s.dbatL = true
  sdr1 : narrow s.cfg s.sdr1 = true
  dar : narrow s.cfg s.dar = true
  sprg : narrowAll s.cfg s.sprg = true
  srr0 : narrow s.cfg s.srr0 = true
  srr1 : narrow s.cfg s.srr1 = true
  dabr : narrow s.cfg s.dabr = true
  pc : narrow s.cfg s.pc = true

theorem State.widthsOk_iff (s : State) : s.widthsOk = true ↔ s.Widths := by
  unfold State.widthsOk
  simp only [Bool.and_eq_true, and_assoc]
  constructor
  · rintro ⟨h1, h2, h3, h4, h5, h6, h7, h8, h9, h10, h11, h12, h13, h14, h15⟩
    exact ⟨h1, h2, h3, h4, h5, h6, h7, h8, h9, h10, h11, h12, h13, h14, h15⟩
  · rintro ⟨h1, h2, h3, h4, h5, h6, h7, h8, h9, h10, h11, h12, h13, h14, h15⟩
    exact ⟨h1, h2, h3, h4, h5, h6, h7, h8, h9, h10, h11, h12, h13, h14, h15⟩

namespace State.Widths

variable {s : State}

theorem writeSpr (h : s.Widths) (r : Spr) (v : DWord) : (s.writeSpr r v).Widths := by
  have hv : narrow s.cfg (s.x v) = true := narrow_xlenOf s.cfg v
  cases r with
  | xer | dsisr | dec | asr | ear | tbl | tbu | pvr | fpecr | pir => exact { h with }
  | lr => exact { h with lr := hv }
  | ctr => exact { h with ctr := hv }
  | dar => exact { h with dar := hv }
  | sdr1 => exact { h with sdr1 := hv }
  | srr0 => exact { h with srr0 := hv }
  | srr1 => exact { h with srr1 := hv }
  | dabr => exact { h with dabr := hv }
  | sprg i => exact { h with sprg := narrowAll_set i.isLt h.sprg hv }
  | ibatU i => exact { h with ibatU := narrowAll_set i.isLt h.ibatU hv }
  | ibatL i => exact { h with ibatL := narrowAll_set i.isLt h.ibatL hv }
  | dbatU i => exact { h with dbatU := narrowAll_set i.isLt h.dbatU hv }
  | dbatL i => exact { h with dbatL := narrowAll_set i.isLt h.dbatL hv }

theorem clobber (h : s.Widths) (v w : DWord) : (s.clobber v w).Widths := by
  unfold State.clobber
  split
  · exact { h with srr0 := narrow_xlenOf s.cfg v, srr1 := narrow_xlenOf s.cfg w }
  · exact h

theorem markPages (h : s.Widths) (marks : List Host.Cell) : (s.markPages marks).Widths :=
  { h with }

theorem clobberData (h : s.Widths) : s.clobberData.Widths := by
  unfold State.clobberData
  split
  · exact h.clobber _ _
  · exact h

theorem clobberFetch (h : s.Widths) : s.clobberFetch.Widths := by
  unfold State.clobberFetch
  split
  · exact (h.markPages _).clobber _ _
  · exact h

theorem take (h : s.Widths) (e : Exc) (a info : DWord) : (s.take e a info).Widths :=
  { h with
    srr0 := s.narrow_wordAligned_ea a
    srr1 := narrow_xlenOf s.cfg _
    msr := narrow_xlenOf s.cfg _
    pc := State.narrow_ea { s with msr := s.x (msrAfterEntry s.cfg s.msr e) } _ }

theorem branchEnd (h : s.Widths) {ctr : DWord} (lk taken : Bool) (v : DWord)
    (hctr : narrow s.cfg ctr = true) :
    (s.branchEnd ctr lk taken (s.registerTarget v)).Widths :=
  { h with
    ctr := hctr
    lr := by cases lk; exacts [h.lr, s.narrow_ea _]
    pc := by cases taken <;> exact s.narrow_ea _ }

theorem effect {data : Bool} {t : State} (he : State.Effect data s t) (h : s.Widths) : t.Widths := by
  cases he with
  | flags | setFpr | setSr | checkstop | storeBytes | external => exact { h with }
  | setGpr r v => exact { h with gpr := narrowAll_set r.isLt h.gpr (narrow_xlenOf s.cfg v) }
  | advance => exact { h with pc := s.narrow_ea _ }
  | branch lk taken v hctr =>
    refine h.branchEnd lk taken v ?_
    obtain rfl | rfl := hctr
    · exact h.ctr
    · exact narrow_xlenOf s.cfg _
  | writeSpr r v => exact h.writeSpr r v
  | moveMsr m =>
    exact { h with msr := narrow_xlenOf s.cfg m, pc := State.narrow_ea { s with msr := s.x m } _ }
  | returnTo m =>
    exact { h with msr := narrow_xlenOf s.cfg m, pc := State.narrow_ea { s with msr := s.x m } _ }
  | take e a info => exact h.take e a info
  | takeAccess e ea cause => exact { h.take e s.pc 0 with dar := s.narrow_ea ea }
  | access marks => exact (h.markPages marks).clobberData

/-- Power-up: every register but MSR and pc is 0. -/
theorem resetOf (c : Config) : (State.resetOf c).Widths := by
  have hpc : narrow c (State.resetPc c) = true := by
    rw [narrow_iff]
    cases hx : c.xlen64 <;> cases hp : c.msrIpReset <;> simp [xlenOf, State.resetPc, hx, hp, low]
  have hmsr : narrow c (State.resetMsr c) = true := by
    rw [narrow_iff]
    cases hx : c.xlen64 <;> cases hp : c.msrIpReset <;>
      simp [xlenOf, State.resetMsr, Config.bridge, hx, hp, low]
  have h0 : narrow c 0#64 = true := by
    rw [narrow_iff]
    cases hx : c.xlen64 <;> simp [xlenOf, hx, low]
  have hall : ∀ n, narrowAll c (Vector.replicate n 0) = true := fun n => by
    simp [narrowAll, h0]
  exact ⟨hall 32, h0, h0, hmsr, hall 4, hall 4, hall 4, hall 4, h0, h0, hall 4, h0, h0, h0, hpc⟩

end State.Widths

/-- Settles O58: every update writes a register masked to XLEN bits, and power-up fits. -/
theorem stepKeepsWidths : Obligations.StepKeepsWidths := by
  intro s t hs h
  rw [State.widthsOk_iff] at hs ⊢
  exact step_keeps (fun _ hs => { hs with }) (fun s _ => { State.Widths.resetOf s.cfg with })
    (fun _ hs => hs.clobberFetch) (fun _ _ => State.Widths.effect) h hs

/-! ## What user level cannot alter -/

open Statements (accessesData)

/-- `t` has the supervisor-level registers of `s`; SRR0 and SRR1 too, but where a data access under
translation may modify them (R152). -/
structure State.SameSupervisor (data : Bool) (s t : State) : Prop where
  cfg : t.cfg = s.cfg
  msr : t.msr = s.msr
  sr : t.sr = s.sr
  asr : t.asr = s.asr
  sdr1 : t.sdr1 = s.sdr1
  ibatU : t.ibatU = s.ibatU
  ibatL : t.ibatL = s.ibatL
  dbatU : t.dbatU = s.dbatU
  dbatL : t.dbatL = s.dbatL
  sprg : t.sprg = s.sprg
  dar : t.dar = s.dar
  dsisr : t.dsisr = s.dsisr
  dec : t.dec = s.dec
  decRequest : t.decRequest = s.decRequest
  tbu : t.tbu = s.tbu
  tbl : t.tbl = s.tbl
  dabr : t.dabr = s.dabr
  ear : t.ear = s.ear
  pir : t.pir = s.pir
  fpecr : t.fpecr = s.fpecr
  srr : s.msrBit msrDR = false ∨ s.cfg.srrClobber = false ∨ data = false →
    t.srr0 = s.srr0 ∧ t.srr1 = s.srr1

namespace State.SameSupervisor

variable {data : Bool} {s t u : State}

theorem refl (data : Bool) (s : State) : s.SameSupervisor data s :=
  ⟨rfl, rfl, rfl, rfl, rfl, rfl, rfl, rfl, rfl, rfl, rfl, rfl, rfl, rfl, rfl, rfl, rfl, rfl, rfl, rfl,
    fun _ => ⟨rfl, rfl⟩⟩

theorem user (h : s.SameSupervisor data t) : t.user = s.user := by
  rw [State.user, State.msrBit, h.msr]
  rfl

theorem trans (h : s.SameSupervisor data t) (h' : t.SameSupervisor data u) :
    s.SameSupervisor data u where
  cfg := h'.cfg.trans h.cfg
  msr := h'.msr.trans h.msr
  sr := h'.sr.trans h.sr
  asr := h'.asr.trans h.asr
  sdr1 := h'.sdr1.trans h.sdr1
  ibatU := h'.ibatU.trans h.ibatU
  ibatL := h'.ibatL.trans h.ibatL
  dbatU := h'.dbatU.trans h.dbatU
  dbatL := h'.dbatL.trans h.dbatL
  sprg := h'.sprg.trans h.sprg
  dar := h'.dar.trans h.dar
  dsisr := h'.dsisr.trans h.dsisr
  dec := h'.dec.trans h.dec
  decRequest := h'.decRequest.trans h.decRequest
  tbu := h'.tbu.trans h.tbu
  tbl := h'.tbl.trans h.tbl
  dabr := h'.dabr.trans h.dabr
  ear := h'.ear.trans h.ear
  pir := h'.pir.trans h.pir
  fpecr := h'.fpecr.trans h.fpecr
  srr hq := by
    have hq' : t.msrBit msrDR = false ∨ t.cfg.srrClobber = false ∨ data = false := by
      rw [State.msrBit, h.msr, h.cfg]
      exact hq
    obtain ⟨h0, h1⟩ := h.srr hq
    obtain ⟨h0', h1'⟩ := h'.srr hq'
    exact ⟨h0'.trans h0, h1'.trans h1⟩

/-- A data access modifies SRR0 and SRR1 only under translation, where the implementation does. -/
theorem access (s : State) (marks : List Host.Cell) (hd : data = true) :
    s.SameSupervisor data (s.markPages marks).clobberData := by
  have hsrr : s.msrBit msrDR = false ∨ s.cfg.srrClobber = false ∨ data = false →
      (s.markPages marks).clobberData = s.markPages marks := by
    rintro (hr | hc | hd')
    · exact State.clobberData_of_real hr
    · unfold State.clobberData State.clobber
      simp [hc]
    · exact absurd (hd.symm.trans hd') Bool.noConfusion
  rw [State.clobberData_eq] at hsrr ⊢
  exact { refl data s with srr := fun hq => by rw [hsrr hq]; exact ⟨rfl, rfl⟩ }

/-- No update forgets that an exception was taken. -/
theorem lastExc_of_effect (h : State.Effect data s t) (he : t.lastExc = none) :
    s.lastExc = none := by
  cases h with
  | flags | setGpr | setFpr | advance | branch | checkstop | storeBytes | external | setSr
  | moveMsr | returnTo => exact he
  | writeSpr r => cases r <;> exact he
  | take | takeAccess => cases he
  | access marks => rw [State.clobberData_eq] at he; exact he

/-- An update at user level that takes no exception. -/
theorem of_effect (h : State.Effect data s t) (hu : s.user = true) (he : t.lastExc = none) :
    s.SameSupervisor data t := by
  have hr := refl data s
  cases h with
  | flags | setGpr | setFpr | advance | branch | checkstop | storeBytes | external =>
    exact { hr with }
  | setSr i w hu' | moveMsr m hu' | returnTo m hu' => exact absurd (hu.symm.trans hu') (by simp)
  | writeSpr r v hr' => obtain rfl | rfl | rfl := hr' hu <;> exact { hr with }
  | take | takeAccess => cases he
  | access marks hd => exact access s marks hd

end State.SameSupervisor

/-- Settles O60: an exception is recorded in `lastExc` for good, so none of the updates of such an
instruction takes one, and the others leave the supervisor-level registers at user level. -/
theorem userCannotAlter : Obligations.UserCannotAlter := by
  intro i s t hu _ h he
  have hsame : t.lastExc = none → s.SameSupervisor (accessesData i) t :=
    (exec_reaches i s t h).keeps
      (Inv := fun t => t.lastExc = none → s.SameSupervisor (accessesData i) t)
      (fun t u htu ih hue =>
        have ht := ih (State.SameSupervisor.lastExc_of_effect htu hue)
        ht.trans (.of_effect htu (ht.user.trans hu) hue))
      (fun _ => .refl _ s)
  obtain ⟨-, h1, h2, h3, h4, h5, h6, h7, h8, h9, h10, h11, h12, h13, h14, h15, h16, h17, h18, h19,
    hsrr⟩ := hsame he
  exact ⟨h1, h2, h3, h4, h5, h6, h7, h8, h9, h10, h11, h12, h13, h14, h15, h16, h17, h18, h19, hsrr⟩

end Sys2Proof.Machine

/-! The one exception entry, bit by bit (spec 60_exceptions.md R445 to R449, 10_state.md R117, R154).
The entries of every instruction and boundary are cases of `State.take_entered`. -/

namespace Sys2Proof.Machine

open Statements

/-! ## Bits of masked values -/

theorem low_getLsbD (v : DWord) (b : Nat) : (low v).getLsbD b = (v.getLsbD b && decide (b < 32)) := by
  by_cases hb : b < 64
  · rw [low, BitVec.getLsbD_and]
    exact congrArg (v.getLsbD b && ·) (getLsbD_lowMask (n := 32) 64 hb)
  · simp [BitVec.getLsbD_of_ge _ b (Nat.le_of_not_lt hb)]

theorem xlenOf_getLsbD (c : Config) (v : DWord) (b : Nat) :
    (xlenOf c v).getLsbD b = (v.getLsbD b && (c.xlen64 || decide (b < 32))) := by
  unfold xlenOf
  cases c.xlen64 <;> simp [low_getLsbD]

/-- A bit below XLEN is in the register. -/
theorem State.x_getLsbD (s : State) (v : DWord) {b : Nat} (hb : b < xlen s) :
    (s.x v).getLsbD b = v.getLsbD b := by
  unfold xlen at hb
  rw [State.x, xlenOf_getLsbD]
  cases hx : s.cfg.xlen64 <;> simp [hx] at hb ⊢
  exact fun _ => hb

theorem bitIf_getLsbD (c : Bool) {k : Nat} (hk : k < 64) (b : Nat) :
    (bitIf c k).getLsbD b = (c && decide (b = k)) := by
  unfold bitIf
  cases c
  · simp
  · by_cases hb : b = k
    · subst hb; simp [hk]
    · simp [hb]
      omega

/-- An address masked as the mode asks does not see that a register was narrowed before. -/
theorem State.ea_x (s : State) (v : DWord) : s.ea (s.x v) = s.ea v := by
  unfold State.x State.ea xlenOf State.mode64
  cases s.cfg.xlen64 <;> simp [low_low]

/-! ## MSR and SRR1 -/

/-- The bits of MSR after an entry (R449): ILE and IP as they were, ME but for a machine check, LE from
ILE, SF and ISF. -/
theorem msrAfterEntry_getLsbD (c : Config) (m : DWord) (e : Exc) (b : Nat) :
    (msrAfterEntry c m e).getLsbD b =
      (m.getLsbD b && (decide (b = msrILE) || decide (b = msrIP) ||
          (decide (b = msrME) && !decide (e = .machineCheck))) ||
        m.getLsbD msrILE && decide (b = msrLE) ||
        (if c.bridge then m.getLsbD msrISF else c.xlen64) && decide (b = msrSF) ||
        (c.bridge && m.getLsbD msrISF) && decide (b = msrISF)) := by
  have hkept : (0x11040#64) = bitIf true msrILE ||| bitIf true msrIP ||| bitIf true msrME := rfl
  have hkept' : (0x10040#64) = bitIf true msrILE ||| bitIf true msrIP := rfl
  have hk := fun c {k} (hk : k < 64) => bitIf_getLsbD c hk b
  unfold msrAfterEntry
  by_cases he : e = .machineCheck <;> cases hb : c.bridge <;>
    simp only [he, hkept, hkept', if_true, if_false, Bool.false_eq_true, BitVec.getLsbD_or,
      BitVec.getLsbD_and, hk _ (show msrILE < 64 by decide), hk _ (show msrIP < 64 by decide),
      hk _ (show msrME < 64 by decide), hk _ (show msrLE < 64 by decide),
      hk _ (show msrSF < 64 by decide), hk _ (show msrISF < 64 by decide)] <;>
    simp [Bool.and_or_distrib_left, Bool.or_assoc]

theorem saveMask_eq : saveMask = ~~~infoMask := rfl

theorem infoMask_lt {b : Nat} (h : infoMask.getLsbD b = true) : b < 32 := by
  by_contra hb
  have hlow : infoMask = low infoMask := rfl
  rw [hlow, low_getLsbD] at h
  simp [hb] at h

/-- A bit of SRR1 after an entry is the information's or MSR's, as the masks of R154 say. -/
theorem State.savedMsr_getLsbD (s : State) (info : DWord) {b : Nat} (hb : b < 64) :
    (s.savedMsr info).getLsbD b =
      if infoMask.getLsbD b then info.getLsbD b else (s.msrView .exceptionEntry).getLsbD b := by
  rw [State.savedMsr, saveMask_eq, BitVec.getLsbD_or, BitVec.getLsbD_and, BitVec.getLsbD_and,
    BitVec.getLsbD_not]
  cases infoMask.getLsbD b <;> simp [hb]

theorem xlen_le (s : State) : 32 ≤ xlen s ∧ xlen s ≤ 64 := by
  unfold xlen
  split <;> omega

/-- A defined MSR bit reads as it was written (R32). -/
theorem State.msrView_getLsbD (s : State) (who : ReservedReader) {b : Nat} (hb : b < xlen s)
    (hd : (msrDefined s.cfg).getLsbD b = true) : (s.msrView who).getLsbD b = s.msr.getLsbD b := by
  rw [State.msrView, State.x_getLsbD s _ hb, State.view_getLsbD_of_defined]
  simp [hd]

/-- Every bit an entry can leave set is one the implementation defines. -/
theorem msrDefined_of_afterEntry {c : Config} {m : DWord} {e : Exc} {b : Nat}
    (h : (msrAfterEntry c m e).getLsbD b = true) : (msrDefined c).getLsbD b = true := by
  have hlow : ∀ b ∈ [msrILE, msrIP, msrME, msrLE], (msrDefined c).getLsbD b = true := by
    have h1 : ∀ b ∈ [msrILE, msrIP, msrME, msrLE], (0x1F973#64).getLsbD b = true := by decide
    intro b hb
    simp only [msrDefined, BitVec.getLsbD_or, h1 b hb, Bool.true_or]
  have hSF : c.xlen64 = true → (msrDefined c).getLsbD msrSF = true := fun hx => by
    rw [msrDefined, BitVec.getLsbD_or, BitVec.getLsbD_or, bitIf_getLsbD c.xlen64 (by decide), hx]
    simp
  have hISF : c.bridge = true → (msrDefined c).getLsbD msrISF = true := fun hx => by
    rw [msrDefined, BitVec.getLsbD_or, bitIf_getLsbD c.bridge (by decide), hx]
    simp
  have hbridge : c.bridge = true → c.xlen64 = true := fun hx => (Bool.and_eq_true_iff.mp hx).1
  rw [msrAfterEntry_getLsbD] at h
  simp only [Bool.or_eq_true, Bool.and_eq_true, decide_eq_true_eq] at h
  obtain ((⟨_, (rfl | rfl) | ⟨rfl, _⟩⟩ | ⟨_, rfl⟩) | ⟨h, rfl⟩) | ⟨⟨h, _⟩, rfl⟩ := h
  · exact hlow _ (by decide)
  · exact hlow _ (by decide)
  · exact hlow _ (by decide)
  · exact hlow _ (by decide)
  · refine hSF ?_
    split at h
    · exact hbridge ‹_›
    · exact h
  · exact hISF h

/-- pc after an entry is the vector (R117, R431), its high half 0 where the entry leaves 32-bit
mode. -/
theorem State.entryPc_eq (s : State) (e : Exc) (a info : DWord) :
    s.entryPc e =
      (if s.msrBit msrIP then (if (s.take e a info).mode64 then 0xFFFFFFFFFFF00000 else 0xFFF00000)
        else 0) + e.offset := by
  have hvec : s.entryPc e = (s.take e a info).ea
      (if s.msrBit msrIP then 0xFFFFFFFFFFF00000#64 ||| e.offset else e.offset) := by
    rw [State.entryPc, State.vector]
    split
    · exact State.ea_x (s.take e a info) _
    · rfl
  rw [hvec, State.ea]
  cases s.msrBit msrIP <;> cases (s.take e a info).mode64 <;> cases e <;>
    simp only [Exc.offset] <;> rfl

theorem State.take_msrBit (s : State) (e : Exc) (a info : DWord) (b : Nat) :
    (s.take e a info).msrBit b =
      ((msrAfterEntry s.cfg s.msr e).getLsbD b && (s.cfg.xlen64 || decide (b < 32))) :=
  xlenOf_getLsbD s.cfg _ b

/-- An entry is as `entered` says (R445). -/
theorem State.take_entered (s : State) (e : Exc) (a info : DWord) :
    entered s (s.take e a info) e a info := by
  have hxlen := xlen_le s
  have hsrr1 : ∀ b, b < xlen s → (s.take e a info).srr1.getLsbD b =
      if infoMask.getLsbD b then info.getLsbD b else (s.msrView .exceptionEntry).getLsbD b :=
    fun b hb => (State.x_getLsbD s _ hb).trans (State.savedMsr_getLsbD s info (by omega))
  refine ⟨rfl, fun b hb => ?_, fun b hb hi hd => ?_, fun b hb => ?_, fun b hb => ?_, ?_, ?_, ?_, ?_,
    s.entryPc_eq e a info⟩
  · rw [hsrr1 b (by have := infoMask_lt hb; omega), if_pos hb]
  · rw [hsrr1 b hb, hi, if_neg Bool.false_ne_true, State.msrView_getLsbD s _ hb hd]
  · have hne : b ≠ msrILE ∧ b ≠ msrIP ∧ b ≠ msrME ∧ b ≠ msrLE ∧ b ≠ msrSF ∧ b ≠ msrISF := by
      revert b
      decide
    rw [State.take_msrBit, msrAfterEntry_getLsbD]
    simp [hne]
  · rw [State.take_msrBit]
    by_contra hne
    simp only [Bool.not_eq_false, Bool.and_eq_true] at hne
    exact absurd (msrDefined_of_afterEntry hne.1) (by simp [hb])
  all_goals
    rw [State.take_msrBit, msrAfterEntry_getLsbD]
    simp [State.msrBit, msrILE, msrIP, msrME, msrLE, msrSF, msrISF]

/-- Settles O48: the entry as `State.take_entered` says, SF and ISF by the bits of the new MSR, the
rest by the fields of the entered state. -/
theorem exceptionEntry : Obligations.ExceptionEntry := by
  intro e a info s
  refine ⟨_, rfl, s.take_entered e a info, fun hx hb => ?_, fun hx hb => ?_, ?_, ?_, fun _ => rfl,
    rfl⟩
  · have hbridge : s.cfg.bridge = true := by simp [Config.bridge, hx, hb]
    rw [State.take_msrBit, State.take_msrBit, msrAfterEntry_getLsbD, msrAfterEntry_getLsbD, hx, hbridge]
    simp [State.msrBit, msrILE, msrIP, msrME, msrLE, msrSF, msrISF]
  · have hbridge : s.cfg.bridge = false := by simp [Config.bridge, hb]
    rw [State.take_msrBit, msrAfterEntry_getLsbD, hx, hbridge]
    simp [msrSF]
  · by_cases he : e = .decrementer <;> simp [he]
  · have hsync := State.excSynchronizes_eq_false (s := s) (e := e)
    show (if s.excSynchronizes e then [] else s.storedSinceSync) = _
    by_cases h : s.excSynchronizes e = false
    · rw [if_pos (hsync.mp h), h]; rfl
    · rw [if_neg (fun hc => h (hsync.mpr hc)), if_pos (by simpa using h)]

end Sys2Proof.Machine

/-! Moves to and from the special-purpose registers (spec 40_spr_access.md), and the forms and writes
that stop by name. -/

namespace Sys2Proof.Machine

open Statements

/-- A supervisor-level number at user level: nothing is read or written (R255). -/
theorem sprMove_privileged (r : RegNum) {n : BitVec 10} {s : State} (hu : s.user = true)
    (hn : n.getLsbD 4 = true) :
    exec (.mtspr r n) s = .next (s.takeProgram .privileged) ∧
      exec (.mfspr r n) s = .next (s.takeProgram .privileged) := by
  have hp : (s.user && sprPrivileged n) = true := by simp [hu, sprPrivileged, hn]
  exact ⟨if_pos hp, if_pos hp⟩

/-- Settles O29: the tables of R30 and R41 by `sprNamed_iff`, the one-way registers by their numbers,
and the privileged entry by `State.take_entered`. -/
theorem Spr.sprPrivileged : Obligations.SprPrivileged := by
  refine ⟨fun c n r => ⟨sprNamed_iff, ?_, ?_, fun h => ?_⟩, fun r n s hu hn i hi => ?_⟩
  · rw [sprReadable_iff, sprNamed_iff]
    refine and_congr_right fun h => ?_
    obtain ⟨htbl, htbu, _⟩ := sprNumber_oneWay h
    rw [Ne, htbl, Ne, htbu]
    simp [← BitVec.toNat_inj]
  · rw [sprWritable_iff, sprNamed_iff]
    refine and_congr_right fun h => ?_
    obtain ⟨_, _, hpvr⟩ := sprNumber_oneWay h
    rw [Ne, hpvr]
    simp [← BitVec.toNat_inj]
  · simpa [← BitVec.toNat_inj] using (sprNumber_user_iff h).1
  · obtain ⟨hmt, hmf⟩ := sprMove_privileged r hu hn
    have hi' : exec i s = .next (s.takeProgram .privileged) := by
      simp only [List.mem_cons, List.not_mem_nil, or_false] at hi
      rcases hi with rfl | rfl
      · exact hmt
      · exact hmf
    exact ⟨_, hi', s.take_entered _ _ _, fun _ => rfl, rfl⟩

/-- The privilege test passes at supervisor level and with a user-level number (R255). -/
theorem sprMove_allowed {n : BitVec 10} {s : State} (hu : s.user = false ∨ n.getLsbD 4 = false) :
    (s.user && sprPrivileged n) = false := by
  rcases hu with hu | hu
  · rw [hu, Bool.false_and]
  · rw [sprPrivileged, hu, Bool.and_false]

/-- Past the privilege test a move to a register stops where its value has no meaning (R251, R255). -/
theorem exec_mtspr_of_stop {rs : RegNum} {n : BitVec 10} {r : Spr} {s : State} {e : Refusal}
    (hr : sprWritable s.cfg n = some r) (hu : s.user = false ∨ n.getLsbD 4 = false)
    (he : s.sprWriteStop r (s.getGpr rs) = some e) :
    exec (.mtspr rs n) s = .refused e := by
  show execMtspr rs n s = _
  simp only [execMtspr, sprMove_allowed hu, hr, he, Bool.false_eq_true, if_false]

/-- A move from a register past the privilege test (R252, R255). -/
theorem exec_mfspr {rd : RegNum} {n : BitVec 10} {r : Spr} {s : State}
    (hr : sprReadable s.cfg n = some r) (hu : s.user = false ∨ n.getLsbD 4 = false) :
    exec (.mfspr rd n) s = .next (s.setGpr rd (s.readSpr n r)).advance := by
  show execMfspr rd n s = _
  rw [execMfspr, sprMove_allowed hu, hr]
  rfl

/-- The register an instruction wrote, masked to XLEN bits. -/
theorem State.getGpr_setGpr_advance (s : State) (r : RegNum) (v : DWord) :
    (s.setGpr r v).advance.getGpr r = s.x v :=
  s.getGpr_setGpr_same r v

/-- The general registers it left. -/
theorem State.gprsBut_setGpr_advance (s : State) (r : RegNum) (v : DWord) :
    gprsBut r s (s.setGpr r v).advance :=
  fun _ hq => s.getGpr_setGpr_of_ne v hq

/-- Narrowing sets no bit. -/
theorem State.x_getLsbD_of_zero (s : State) {v : DWord} {b : Nat} (h : v.getLsbD b = false) :
    (s.x v).getLsbD b = false := by
  rw [State.x, xlenOf_getLsbD, h, Bool.false_and]

/-- Settles O28: the read is a view of the register's value, masked to XLEN bits. -/
theorem mfsprReads : Obligations.MfsprReads := by
  intro rd n r s hr hu
  refine ⟨_, exec_mfspr hr hu, fun b hb hres => ?_, fun b hz => ?_, s.gprsBut_setGpr_advance _ _,
    fun _ => rfl, rfl⟩
  · rw [State.getGpr_setGpr_advance, State.x_getLsbD s _ hb]
    exact State.view_getLsbD_of_defined s _ _ _ hres
  · rw [State.getGpr_setGpr_advance]
    exact s.x_getLsbD_of_zero (State.view_getLsbD_of_zero s _ _ _ hz)

/-! ## The forms and writes with no meaning -/

theorem State.ifCompareForm_of_narrow {s : State} (h : s.cfg.xlen64 = false) (k : Result) :
    s.ifCompareForm true k = .refused .invalidForm := by
  simp [State.ifCompareForm, h]

theorem State.byteCount_eq (s : State) : s.byteCount = s.xer.toNat % 128 := by
  simp [State.byteCount]

/-- A register is loaded by a string of `n` bytes from `r` on (R391). -/
theorem contains_stringRegs_iff {r q : RegNum} {n : Nat} :
    (stringRegs r n).contains q = true ↔ ∃ k, k < (n + 3) / 4 ∧ r + BitVec.ofNat 5 k = q := by
  simp [stringRegs, stringRegCount]

/-- The invalid forms of `lswx` (R391). -/
theorem lswxInvalid_iff {rd ra rb : RegNum} {n : Nat} :
    lswxInvalid rd ra rb n = true ↔ rd = ra ∨ rd = rb ∨ ∃ k, k < (n + 3) / 4 ∧
      (ra ≠ 0 ∧ rd + BitVec.ofNat 5 k = ra ∨ rd + BitVec.ofNat 5 k = rb) := by
  simp only [lswxInvalid, Bool.or_eq_true, Bool.and_eq_true, beq_iff_eq, bne_iff_ne,
    contains_stringRegs_iff, or_assoc]
  refine or_congr_right (or_congr_right ⟨?_, ?_⟩)
  · rintro (⟨ha, k, hk, hra⟩ | ⟨k, hk, hrb⟩)
    · exact ⟨k, hk, .inl ⟨ha, hra⟩⟩
    · exact ⟨k, hk, .inr hrb⟩
  · rintro ⟨k, hk, ⟨ha, hra⟩ | hrb⟩
    · exact .inl ⟨ha, k, hk, hra⟩
    · exact .inr ⟨k, hk, hrb⟩

/-- The number of a lower IBAT names one (R30). -/
theorem sprWritable_ibatL {c : Config} {n : BitVec 10}
    (h : n = 529 ∨ n = 531 ∨ n = 533 ∨ n = 535) : ∃ i, sprWritable c n = some (.ibatL i) := by
  rcases h with rfl | rfl | rfl | rfl
  exacts [⟨0, rfl⟩, ⟨1, rfl⟩, ⟨2, rfl⟩, ⟨3, rfl⟩]

/-- A 1 for W or G is seen by the mask of the two. -/
theorem and_batWG_ne_zero {v : DWord} (h : v.getLsbD 6 = true ∨ v.getLsbD 3 = true) :
    v &&& batWG ≠ 0 := by
  intro h0
  have hbit : ∀ b, (v &&& batWG).getLsbD b = false := fun b => by rw [h0]; simp
  rcases h with h | h
  · have h6 := hbit 6
    rw [BitVec.getLsbD_and, h] at h6
    exact absurd h6 (by decide)
  · have h3 := hbit 3
    rw [BitVec.getLsbD_and, h] at h3
    exact absurd h3 (by decide)

/-- Settles O31: each form fails the test of its instruction. -/
theorem invalidForms : Obligations.InvalidForms := by
  refine ⟨fun f ra rb imm s hx => ?_, fun v bi lk s hv => ?_, fun rd ra rb s h => ?_,
    fun rs n s hu => ⟨fun hn ht => ?_, fun hn hw => ?_⟩⟩
  · exact ⟨State.ifCompareForm_of_narrow hx _, State.ifCompareForm_of_narrow hx _,
      State.ifCompareForm_of_narrow hx _, State.ifCompareForm_of_narrow hx _⟩
  · exact if_neg (by simpa [bo, boBit] using hv)
  · exact if_pos (lswxInvalid_iff.mpr (by rw [State.byteCount_eq]; exact h))
  · have ht' : s.translating = true := by simpa [State.translating] using ht
    exact exec_mtspr_of_stop (r := .sdr1) (by rw [hn]; rfl) (.inl hu) (if_pos ht')
  · obtain ⟨i, hi⟩ := sprWritable_ibatL (c := s.cfg) hn
    exact exec_mtspr_of_stop hi (.inl hu) (if_neg (and_batWG_ne_zero hw))

end Sys2Proof.Machine

/-! Moves to and from MSR and the returns (spec 45_msr_sr_system.md R361 to R368), synchronization
(46_other_named.md R400 to R404), the time base (10_state.md R98), power-up, and the step of a boundary
that runs an instruction. -/

namespace Sys2Proof.Machine

open Statements

/-! ## Guards that let the instruction run -/

theorem and_eq_false_of_imp {a b : Bool} (h : a = true → b = false) : (a && b) = false := by
  cases a
  · rfl
  · exact h rfl

theorem State.ifExists_of_there {s : State} {there : Bool} (h : there = true) (k : Result) :
    s.ifExists there k = k := if_pos h

theorem State.ifSupervisor_of_supervisor {s : State} (h : s.user = false) (k : Result) :
    s.ifSupervisor k = k := if_neg (by simp [h])

/-! ## Instruction addresses as numbers -/

/-- The address of the next instruction, modulo the width of the mode (R166). -/
theorem State.nextPc_toNat (s : State) : s.nextPc.toNat = (s.pc.toNat + 4) % 2 ^ modeWidth s := by
  rw [State.nextPc, State.ea_toNat, BitVec.toNat_add, modeWidth]
  split <;> simp

/-! ## Moves to MSR -/

/-- A change of MSR that turns no mode on under FEX has nothing to follow (R367). -/
theorem State.afterMsrChange_of_quietFe {s t : State} (hf : t.fpscr = s.fpscr)
    (h : quietFe s (t.msrBit msrFE0) (t.msrBit msrFE1)) : s.afterMsrChange t = .next t := by
  unfold State.afterMsrChange State.feEnabled
  rw [hf]
  cases hx : fpscrFEX s.fpscr
  · simp
  · obtain ⟨h0, h1⟩ | ⟨h0, h1⟩ := h hx <;> simp [h0, h1]

/-- A 1 written to an implemented POW stops. -/
theorem State.moveToMsr_of_pow {s : State} {v : DWord} (hp : s.cfg.hasPow = true)
    (hv : (s.x v).getLsbD msrPOW = true) : s.moveToMsr v = .refused .powerManagement := by
  rw [State.x_getLsbD s v (by have := xlen_le s; simp only [msrPOW]; omega)] at hv
  rw [State.moveToMsr, hp, hv]
  rfl

/-- Any other move to MSR that turns no mode on under FEX writes MSR and pc. -/
theorem State.moveToMsr_of_quiet {s : State} {v : DWord}
    (hp : s.cfg.hasPow = true → (s.x v).getLsbD msrPOW = false)
    (hq : quietFe s ((s.x v).getLsbD msrFE0) ((s.x v).getLsbD msrFE1)) :
    s.moveToMsr v = .next
      { s with msr := s.x v, pc := State.ea { s with msr := s.x v } s.nextPc } := by
  rw [State.x_getLsbD s v (by have := xlen_le s; simp only [msrPOW]; omega)] at hp
  rw [State.moveToMsr, and_eq_false_of_imp hp, if_neg Bool.false_ne_true]
  exact State.afterMsrChange_of_quietFe rfl hq

/-- What `mtmsr` and `mtmsrd` do where they exist, by the value they move. -/
theorem exec_msrMove {s : State} (hu : s.user = false) (rs : RegNum) :
    (s.cfg.xlen64 = false ∨ s.cfg.hasBridge = true →
      exec (.mtmsr rs) s = s.moveToMsr (s.mtmsrValue rs)) ∧
    (s.cfg.xlen64 = true → exec (.mtmsrd rs) s = s.moveToMsr (s.getGpr rs)) := by
  refine ⟨fun h => ?_, fun h => ?_⟩
  · have h32 : s.cfg.has32BitForms = true := by
      rcases h with h | h <;> simp [Config.has32BitForms, h]
    exact (State.ifExists_of_there h32 _).trans (State.ifSupervisor_of_supervisor hu _)
  · exact (State.ifExists_of_there h _).trans (State.ifSupervisor_of_supervisor hu _)

theorem joinWords_hi32_lo32 (v : DWord) : joinWords (hi32 v) (lo32 v) = v := by
  apply BitVec.eq_of_getLsbD_eq
  intro i hi
  rw [joinWords_getLsbD]
  split
  · simp [lo32, *]
  · simp [hi32, show i - 32 < 32 by omega, show 32 + (i - 32) = i by omega]

theorem low_eq_zext (v : DWord) : low v = zext (lo32 v) := by
  apply BitVec.eq_of_getLsbD_eq
  intro i hi
  rw [low_getLsbD]
  simp [zext, lo32, hi, Bool.and_comm]

theorem joinWords_zero (w : Word) : joinWords 0 w = zext w := by
  apply BitVec.eq_of_getLsbD_eq
  intro i hi
  rw [joinWords_getLsbD]
  by_cases h : i < 32
  · simp [zext, hi, h]
  · simp [zext, h, BitVec.getLsbD_of_ge w i (Nat.le_of_not_lt h)]

/-- The value of `mtmsr` as MSR holds it: the high-order word stays on 64 bits (R361). -/
theorem State.x_mtmsrValue {s : State} {rs : RegNum} {m : DWord} (hlo : lo32 m = s.gprWord rs)
    (hhi : hi32 m = if s.cfg.xlen64 then hi32 s.msr else 0) : s.x (s.mtmsrValue rs) = m := by
  rw [State.x, xlenOf, State.mtmsrValue]
  rw [← joinWords_hi32_lo32 m, hlo, hhi]
  split
  · rfl
  · rw [low_eq_zext, lo32_joinWords, joinWords_zero]

/-- Settles O33: each move writes MSR with a value that `State.x` gives; the reads are views of MSR. -/
theorem msrMoves : Obligations.MsrMoves := by
  refine ⟨fun rs s hu i m hi => ?_, fun rd s hu => ?_⟩
  · obtain ⟨hmt, hmtd⟩ := exec_msrMove hu rs
    obtain ⟨v, hv, rfl⟩ : ∃ v, exec i s = s.moveToMsr v ∧ s.x v = m := by
      obtain ⟨rfl, hex, hlo, hhi⟩ | ⟨rfl, hex, rfl⟩ := hi
      · exact ⟨_, hmt hex, State.x_mtmsrValue hlo hhi⟩
      · exact ⟨_, hmtd hex, by rw [State.x, xlenOf, if_pos hex]⟩
    rw [hv]
    refine ⟨State.moveToMsr_of_pow, fun hp hq => ⟨_, State.moveToMsr_of_quiet hp hq, rfl, ?_,
      fun _ => rfl, rfl⟩⟩
    show (State.ea _ s.nextPc).toNat = _
    rw [State.ea_toNat, State.nextPc_toNat]
    rfl
  · refine ⟨_, State.ifSupervisor_of_supervisor hu _, fun b hb hd => ?_, fun b hz => ?_,
      s.gprsBut_setGpr_advance _ _, fun _ => rfl, rfl⟩
    · rw [State.getGpr_setGpr_advance, State.x_getLsbD s _ hb, State.msrView_getLsbD s _ hb hd]
    · rw [State.getGpr_setGpr_advance]
      exact s.x_getLsbD_of_zero (s.x_getLsbD_of_zero (State.view_getLsbD_of_zero s _ _ _ hz))

/-! ## Returns -/

/-- The restored bits come from SRR1, the others stay (R154, R365, R366). -/
theorem State.msrFromSrr1_getLsbD (s : State) {b : Nat} (hb : b < 64) :
    s.msrFromSrr1.getLsbD b =
        (if infoMask.getLsbD b then s.msr.getLsbD b else s.srr1.getLsbD b) ∧
      s.msrFromSrr1Low.getLsbD b =
        if infoMask.getLsbD b = true ∨ 32 ≤ b then s.msr.getLsbD b else s.srr1.getLsbD b := by
  rw [State.msrFromSrr1, State.msrFromSrr1Low, mergeBits_getLsbD, mergeBits_getLsbD, low_getLsbD,
    saveMask_eq, BitVec.getLsbD_not]
  cases infoMask.getLsbD b <;> by_cases h : b < 32 <;> simp [hb, h]

/-- A return that restores the bits `returned` names, and turns no mode on under FEX. -/
theorem State.returnTo_returned {s : State} {m : DWord} {high : Bool}
    (hm : ∀ b, b < 64 → m.getLsbD b =
      if infoMask.getLsbD b = true ∨ (32 ≤ b ∧ high = false) then s.msr.getLsbD b
      else s.srr1.getLsbD b)
    (hq : quietFe s (s.srr1.getLsbD 11) (s.srr1.getLsbD 8)) :
    ∃ t, s.afterMsrChange (s.returnTo m) = .next t ∧ returned high s t := by
  have hxlen := xlen_le s
  have hmsr : ∀ b, b < xlen s → (s.returnTo m).msr.getLsbD b =
      if infoMask.getLsbD b = true ∨ (32 ≤ b ∧ high = false) then s.msr.getLsbD b
      else s.srr1.getLsbD b :=
    fun b hb => (State.x_getLsbD s m hb).trans (hm b (by omega))
  have hfe0 : (s.returnTo m).msrBit msrFE0 = s.srr1.getLsbD 11 :=
    (hmsr 11 (by omega)).trans (if_neg (by simp; decide))
  have hfe1 : (s.returnTo m).msrBit msrFE1 = s.srr1.getLsbD 8 :=
    (hmsr 8 (by omega)).trans (if_neg (by simp; decide))
  refine ⟨_, State.afterMsrChange_of_quietFe rfl (by rw [hfe0, hfe1]; exact hq), hmsr, ?_,
    fun _ => rfl, rfl⟩
  show (State.ea { s with msr := s.x m, storedSinceSync := [] } (wordAligned s.srr0)).toNat = _
  rw [State.ea_toNat, wordAligned_toNat]
  rfl

/-- Settles O36: `rfi` and `rfid` are returns with the masks of `State.msrFromSrr1_getLsbD`. -/
theorem returnRestores : Obligations.ReturnRestores := by
  intro s hu hq
  refine ⟨fun hex => ?_, fun hex => ?_⟩
  · have h32 : s.cfg.has32BitForms = true := by
      rcases hex with h | h <;> simp [Config.has32BitForms, h]
    have hrfi : exec .rfi s = s.afterMsrChange (s.returnTo s.msrFromSrr1Low) :=
      (State.ifExists_of_there h32 _).trans (State.ifSupervisor_of_supervisor hu _)
    rw [hrfi]
    refine State.returnTo_returned (fun b hb => ?_) hq
    simpa using (s.msrFromSrr1_getLsbD hb).2
  · have hrfid : exec .rfid s = s.afterMsrChange (s.returnTo s.msrFromSrr1) :=
      (State.ifExists_of_there hex _).trans (State.ifSupervisor_of_supervisor hu _)
    rw [hrfid]
    refine State.returnTo_returned (fun b hb => ?_) hq
    simpa using (s.msrFromSrr1_getLsbD hb).1

/-! ## Synchronization -/

/-- Settles O39: past its guards each of them is `State.advance`. -/
theorem synchronizeOnly : Obligations.SynchronizeOnly := by
  intro rb s
  refine ⟨rfl, fun hu => ?_⟩
  have hk : s.ifSupervisor (.next s.advance) = .next { s with pc := s.nextPc } :=
    State.ifSupervisor_of_supervisor hu _
  exact ⟨hk, fun h => (State.ifExists_of_there h _).trans hk,
    fun h => ⟨(State.ifExists_of_there h _).trans hk, (State.ifExists_of_there h _).trans hk⟩⟩

/-! ## The time base -/

theorem joinWords_toNat (h l : Word) : (joinWords h l).toNat = h.toNat * 2 ^ 32 + l.toNat := by
  rw [joinWords, BitVec.toNat_append, ← Nat.shiftLeft_add_eq_or_of_lt l.isLt, Nat.shiftLeft_eq]

theorem lo32_toNat (v : DWord) : (lo32 v).toNat = v.toNat % 2 ^ 32 := by simp [lo32]

theorem hi32_toNat (v : DWord) : (hi32 v).toNat = v.toNat / 2 ^ 32 := by
  have := v.isLt
  simp [hi32, Nat.shiftRight_eq_div_pow]
  omega

/-- `t` is `s` but for the time base and the decrementer with its request. -/
def State.SameButTime (s t : State) : Prop :=
  ∃ tbu tbl dec req, t = { s with tbu := tbu, tbl := tbl, dec := dec, decRequest := req }

theorem State.SameButTime.trans {s t u : State} (h : s.SameButTime t) (h' : t.SameButTime u) :
    s.SameButTime u := by
  obtain ⟨_, _, _, _, rfl⟩ := h
  obtain ⟨tbu, tbl, dec, req, rfl⟩ := h'
  exact ⟨tbu, tbl, dec, req, rfl⟩

/-- Decrements leave the time base. -/
theorem State.decSteps_eq (n : Nat) (s : State) :
    ∃ dec req, State.decSteps n s = { s with dec := dec, decRequest := req } := by
  induction n generalizing s with
  | zero => exact ⟨s.dec, s.decRequest, rfl⟩
  | succ n ih =>
    obtain ⟨dec, req, h⟩ := ih s.decStep
    exact ⟨dec, req, h⟩

/-- One tick adds 1 to the time base and may decrement DEC. -/
theorem State.tick_spec (s : State) :
    s.SameButTime s.tick ∧ s.tick.timeBase = s.timeBase + 1#64 := by
  obtain ⟨dec, req, h⟩ := State.decSteps_eq s.cfg.decPerTb
    { s with tbu := hi32 (s.timeBase + 1#64), tbl := lo32 (s.timeBase + 1#64) }
  have htick : s.tick = { s with tbu := hi32 (s.timeBase + 1#64), tbl := lo32 (s.timeBase + 1#64),
                                 dec := dec, decRequest := req } := h
  rw [htick]
  exact ⟨⟨_, _, dec, req, rfl⟩, joinWords_hi32_lo32 _⟩

/-- `n` ticks add `n`. -/
theorem State.ticks_spec (n : Nat) (s : State) :
    s.SameButTime (State.ticks n s) ∧
      (State.ticks n s).timeBase.toNat = (s.timeBase.toNat + n) % 2 ^ 64 := by
  induction n generalizing s with
  | zero =>
    exact ⟨⟨s.tbu, s.tbl, s.dec, s.decRequest, rfl⟩, (Nat.mod_eq_of_lt s.timeBase.isLt).symm⟩
  | succ n ih =>
    obtain ⟨hsame, htb⟩ := s.tick_spec
    obtain ⟨hsame', htb'⟩ := ih s.tick
    refine ⟨hsame.trans hsame', htb'.trans ?_⟩
    rw [htb, BitVec.toNat_add]
    simp
    omega

/-- Settles O53: the halves of the 64-bit sum, by induction on the ticks. -/
theorem timeBaseCounts : Obligations.TimeBaseCounts := by
  intro n s
  obtain ⟨hsame, htb⟩ := s.ticks_spec n
  refine ⟨?_, htb, ?_⟩
  · have h1 := (s.ticks_spec 1).2
    rw [State.timeBase, State.timeBase, joinWords_toNat, joinWords_toNat] at h1
    have := s.tbl.isLt
    have := s.tbu.isLt
    have := (State.ticks 1 s).tbl.isLt
    have := (State.ticks 1 s).tbu.isLt
    constructor
    · omega
    · split <;> omega
  · obtain ⟨_, _, _, _, h⟩ := hsame
    rw [h]

/-! ## Power-up and the step of a boundary that runs an instruction -/

/-- Settles O55: the numbers are read off each configuration of the parameters, and the invariants
are those of the reset state. -/
theorem resetState : Obligations.ResetState := by
  intro c
  refine ⟨_, rfl, rfl, ?_, ?_, rfl, rfl, rfl, rfl, resetOf_pcAligned c, resetOf_pcInMode c,
    (State.widthsOk_iff _).mpr (.resetOf c)⟩
  · show (State.resetMsr c).toNat = _
    cases hx : c.xlen64 <;> cases hb : c.hasBridge <;> cases hp : c.msrIpReset <;>
      simp [State.resetMsr, Config.bridge, hx, hb, hp]
  · show (State.resetPc c).toNat = _
    cases hx : c.xlen64 <;> cases hp : c.msrIpReset <;> simp [State.resetPc, hx, hp]

/-- A boundary at which nothing is requested and the processor runs executes an instruction. -/
theorem step_of_quietBoundary {s t : State} (h : quietBoundary s t) : step s = t.runInstr := by
  obtain ⟨rfl, hreset, hmc, hstop, hle, hpow, hee⟩ := h
  have hpow' : (s.atBoundary.cfg.hasPow && s.atBoundary.msrBit msrPOW) = false :=
    and_eq_false_of_imp hpow
  have hext : (s.atBoundary.msrBit msrEE && s.nextInput.extInt) = false :=
    and_eq_false_of_imp fun h => (hee h).1
  have hdec : (s.atBoundary.msrBit msrEE && s.atBoundary.decRequest) = false :=
    and_eq_false_of_imp fun h => (hee h).2
  rw [step, State.boundary, hreset]
  simp only [hstop, hle, hpow', hmc, hext, hdec, Bool.false_eq_true, if_false]

/-- Settles O49: every test of the boundary before the fetch fails. -/
theorem stepRunsDecoded : Obligations.StepRunsDecoded := by
  intro s t w i hq hf hd
  rw [step_of_quietBoundary hq, State.runInstr, hf]
  simp only [hd]

end Sys2Proof.Machine

/-! Bits and four-bit fields of the 32-bit registers in source numbering (spec 00_scope.md R9,
10_state.md R42, 42_fpscr.md R300), and with them the compares and the moves to FPSCR. -/

namespace Sys2Proof.Machine

open Statements

/-! ## Fields by their bits -/

theorem field4_getLsbD (w : Word) (n : FieldNum) {k : Nat} (hk : k < 4) :
    (field4 w n).getLsbD k = w.getLsbD (28 - 4 * n.toNat + k) := by
  simp [field4, hk]

/-- Four ones shifted to a field. -/
theorem fieldOnes_getLsbD {n i : Nat} (hn : n < 8) (hi : i < 32) :
    (0xF#32 <<< (28 - 4 * n)).getLsbD i = decide (i / 4 = 7 - n) := by
  have h4 : ∀ j < 32, (0xF#32).getLsbD j = decide (j < 4) := fun j hj =>
    getLsbD_lowMask (n := 4) 32 hj
  rw [BitVec.getLsbD_shiftLeft, h4 _ (by omega)]
  by_cases h : i < 28 - 4 * n
  · simp [hi, h]; omega
  · simp [hi, h]; omega

theorem fieldMask_getLsbD (n : FieldNum) {i : Nat} (hi : i < 32) :
    (fieldMask n).getLsbD i = decide (i / 4 = 7 - n.toNat) :=
  fieldOnes_getLsbD n.isLt hi

theorem setField4_getLsbD (w : Word) (n : FieldNum) (v : BitVec 4) {i : Nat} (hi : i < 32) :
    (setField4 w n v).getLsbD i =
      if i / 4 = 7 - n.toNat then v.getLsbD (i % 4) else w.getLsbD i := by
  have hn := n.isLt
  rw [setField4, BitVec.getLsbD_or, BitVec.getLsbD_and, BitVec.getLsbD_not, fieldMask_getLsbD n hi,
    BitVec.getLsbD_shiftLeft, BitVec.getLsbD_setWidth]
  by_cases h : i / 4 = 7 - n.toNat
  · have hge : ¬i < 28 - 4 * n.toNat := by omega
    have hmod : i - (28 - 4 * n.toNat) = i % 4 := by omega
    simp [h, hi, hge, hmod]
    omega
  · by_cases hlt : i < 28 - 4 * n.toNat
    · simp [h, hi, hlt]
    · simp [h, hi, hlt, BitVec.getLsbD_of_ge v (i - (28 - 4 * n.toNat)) (by omega)]

@[simp] theorem field4_setField4_same (w : Word) (n : FieldNum) (v : BitVec 4) :
    field4 (setField4 w n v) n = v := by
  have hn := n.isLt
  apply BitVec.eq_of_getLsbD_eq
  intro k hk
  rw [field4_getLsbD _ n hk, setField4_getLsbD _ _ _ (by omega), if_pos (by omega)]
  congr 1
  omega

theorem field4_setField4_of_ne (w : Word) {n g : FieldNum} (v : BitVec 4) (h : g ≠ n) :
    field4 (setField4 w n v) g = field4 w g := by
  have hn := n.isLt
  have hg := g.isLt
  have hne : g.toNat ≠ n.toNat := fun e => h (BitVec.eq_of_toNat_eq e)
  apply BitVec.eq_of_getLsbD_eq
  intro k hk
  rw [field4_getLsbD _ g hk, field4_getLsbD _ g hk, setField4_getLsbD _ _ _ (by omega),
    if_neg (by omega)]

/-- The fields a mask of eight bits selects, after the first `n` of them. -/
theorem fieldsMask_foldl_getLsbD (m : BitVec 8) {i : Nat} (hi : i < 32) : ∀ n ≤ 8,
    ((List.range n).foldl
      (fun acc k => if m.getLsbD (7 - k) then acc ||| (0xF#32 <<< (28 - 4 * k)) else acc)
      (0 : Word)).getLsbD i = (decide (7 - i / 4 < n) && m.getLsbD (i / 4))
  | 0, _ => by simp
  | n + 1, hn => by
    have ih := fieldsMask_foldl_getLsbD m hi n (by omega)
    rw [List.range_succ, List.foldl_append, List.foldl_cons, List.foldl_nil]
    have hlast : 7 - i / 4 = n ↔ i / 4 = 7 - n := by omega
    by_cases hi4 : i / 4 = 7 - n
    · split
      · rename_i hm
        rw [BitVec.getLsbD_or, ih, fieldOnes_getLsbD (by omega) hi, hi4, hm]
        simp
        omega
      · rename_i hm
        rw [ih, hi4, Bool.eq_false_of_not_eq_true hm, Bool.and_false, Bool.and_false]
    · have hlt : decide (7 - i / 4 < n + 1) = decide (7 - i / 4 < n) :=
        decide_eq_decide.mpr (by omega)
      rw [hlt, ← ih]
      split
      · rw [BitVec.getLsbD_or, fieldOnes_getLsbD (by omega) hi, decide_eq_false hi4, Bool.or_false]
      · rfl

theorem fieldsMask_getLsbD (m : BitVec 8) {i : Nat} (hi : i < 32) :
    (fieldsMask m).getLsbD i = m.getLsbD (i / 4) := by
  rw [fieldsMask, fieldsMask_foldl_getLsbD m hi 8 (by omega)]
  simp
  omega

/-! ## Bits in source numbering -/

theorem srcBit_and (v w : Word) (b : RegNum) : srcBit (v &&& w) b = (srcBit v b && srcBit w b) :=
  BitVec.getLsbD_and

theorem srcBit_or (v w : Word) (b : RegNum) : srcBit (v ||| w) b = (srcBit v b || srcBit w b) :=
  BitVec.getLsbD_or

theorem srcBit_not (w : Word) (b : RegNum) : srcBit (~~~w) b = !srcBit w b := by
  have hb : 31 - b.toNat < 32 := by omega
  simp [srcBit, hb]

theorem srcBit_zero (b : RegNum) : srcBit 0 b = false := by simp [srcBit]

/-- A word with some bit set is not 0. -/
theorem ne_zero_iff_srcBit (w : Word) : w ≠ 0 ↔ ∃ b : RegNum, srcBit w b = true := by
  constructor
  · intro h
    by_contra hall
    refine h (BitVec.eq_of_getLsbD_eq fun i hi => ?_)
    have hb : srcBit w (BitVec.ofNat 5 (31 - i)) = false :=
      Bool.eq_false_of_not_eq_true fun hb => hall ⟨_, hb⟩
    have hidx : 31 - (BitVec.ofNat 5 (31 - i)).toNat = i := by
      rw [BitVec.toNat_ofNat]
      omega
    rw [srcBit, hidx] at hb
    simp [hb]
  · rintro ⟨b, hb⟩ rfl
    rw [srcBit_zero] at hb
    cases hb

theorem srcBit_fieldMask (n : FieldNum) (b : RegNum) :
    srcBit (fieldMask n) b = decide (b.toNat / 4 = n.toNat) := by
  have hb := b.isLt
  have hn := n.isLt
  rw [srcBit, fieldMask_getLsbD n (by omega)]
  exact decide_eq_decide.mpr (by omega)

theorem srcBit_setField4 (w : Word) (n : FieldNum) (v : BitVec 4) (b : RegNum) :
    srcBit (setField4 w n v) b =
      if b.toNat / 4 = n.toNat then v.getLsbD (3 - b.toNat % 4) else srcBit w b := by
  have hb := b.isLt
  have hn := n.isLt
  rw [srcBit, setField4_getLsbD _ _ _ (by omega), srcBit]
  have hiff : (31 - b.toNat) / 4 = 7 - n.toNat ↔ b.toNat / 4 = n.toNat := by omega
  simp only [hiff, show (31 - b.toNat) % 4 = 3 - b.toNat % 4 by omega]

theorem srcBit_fieldsMask (m : BitVec 8) (b : RegNum) :
    srcBit (fieldsMask m) b = m.getLsbD (7 - b.toNat / 4) := by
  have hb := b.isLt
  rw [srcBit, fieldsMask_getLsbD m (by omega)]
  congr 1
  omega

theorem srcBit_putBit (w : Word) {k : Nat} (hk : k < 32) (v : Bool) (b : RegNum) :
    srcBit (putBit w k v) b = if b.toNat = 31 - k then v else srcBit w b := by
  have hb := b.isLt
  have hiff : 31 - b.toNat = k ↔ b.toNat = 31 - k := by omega
  rw [srcBit, putBit_getLsbD w hk, srcBit]
  simp only [hiff]

theorem srcBit_setSrcBit (w : Word) (d : RegNum) (v : Bool) (b : RegNum) :
    srcBit (setSrcBit w d v) b = if b = d then v else srcBit w b := by
  have h : setSrcBit w d v = putBit w (31 - d.toNat) v := rfl
  have hiff : b.toNat = 31 - (31 - d.toNat) ↔ b = d := by
    rw [← BitVec.toNat_inj]
    omega
  rw [h, srcBit_putBit w (by omega)]
  simp only [hiff]

theorem srcBit_fpscrComputed (b : RegNum) : srcBit fpscrComputed b = isComputed b := by
  revert b; decide

theorem srcBit_fpscrExc (b : RegNum) : srcBit fpscrExc b = isExc b := by
  revert b; decide

theorem srcBit_fpscrFX (b : RegNum) : srcBit fpscrFX b = (b == 0) := by
  revert b; decide

theorem srcBit_fpscrInvalid (b : RegNum) : srcBit fpscrInvalid b =
    decide (7 ≤ b.toNat ∧ b.toNat ≤ 12 ∨ 21 ≤ b.toNat ∧ b.toNat ≤ 23) := by
  revert b; decide

/-! ## Compares -/

theorem crBits_getLsbD (b0 b1 b2 b3 : Bool) :
    (crBits b0 b1 b2 b3).getLsbD 3 = b0 ∧ (crBits b0 b1 b2 b3).getLsbD 2 = b1 ∧
      (crBits b0 b1 b2 b3).getLsbD 1 = b2 ∧ (crBits b0 b1 b2 b3).getLsbD 0 = b3 := by
  revert b0 b1 b2 b3
  decide

/-- The four bits of a compare field, left to right. -/
theorem compareField_getLsbD (lt gt so : Bool) :
    (compareField lt gt so).getLsbD 3 = lt ∧ (compareField lt gt so).getLsbD 2 = gt ∧
      (compareField lt gt so).getLsbD 1 = (!lt && !gt) ∧ (compareField lt gt so).getLsbD 0 = so :=
  crBits_getLsbD _ _ _ _

/-- A compare writes one field (R47). -/
theorem State.setCrField_compared (s : State) (f : FieldNum) (lt gt : Prop) [Decidable lt]
    [Decidable gt] :
    compared f lt gt s (s.setCrField f (compareField (decide lt) (decide gt) s.so)).advance := by
  obtain ⟨h3, h2, h1, h0⟩ := compareField_getLsbD (decide lt) (decide gt) s.so
  have hsame := field4_setField4_same s.cr f (compareField (decide lt) (decide gt) s.so)
  refine ⟨?_, ?_, ?_, ?_, fun g hg => field4_setField4_of_ne s.cr _ hg, fun _ => rfl, rfl⟩
  all_goals simp only [State.advance_cr, State.setCrField_cr, hsame, h3, h2, h1, h0]
  simp

/-- Settles O12: each compare exists in its form and writes its field. -/
theorem compareResult : Obligations.CompareResult := by
  intro f l ra rb imm s hl
  have hform : ∀ k, s.ifCompareForm l k = k := fun k =>
    if_neg (by cases l <;> simp at hl ⊢; exact hl)
  exact ⟨⟨_, hform _, s.setCrField_compared f _ _⟩, ⟨_, hform _, s.setCrField_compared f _ _⟩,
    ⟨_, hform _, s.setCrField_compared f _ _⟩, ⟨_, hform _, s.setCrField_compared f _ _⟩⟩

/-! ## FPSCR -/

/-- FEX and VX take the places 1 and 2; every other bit reads as stored (R300 c). -/
theorem srcBit_fpscrRecomputed (f : Word) (b : RegNum) :
    srcBit (fpscrRecomputed f) b =
      if b = 2 then fpscrVX f else if b = 1 then fpscrFEX f else srcBit f b := by
  rw [fpscrRecomputed, srcBit_putBit _ (by decide), srcBit_putBit _ (by decide)]
  simp [← BitVec.toNat_inj]

/-- VX is the OR of the invalid operation exceptions (R55). -/
theorem fpscrVX_iff (f : Word) :
    fpscrVX f = true ↔ ∃ b : RegNum, srcBit f b = true ∧
      (7 ≤ b.toNat ∧ b.toNat ≤ 12 ∨ 21 ≤ b.toNat ∧ b.toNat ≤ 23) := by
  rw [fpscrVX, bne_iff_ne, ne_zero_iff_srcBit]
  simp only [srcBit_and, srcBit_fpscrInvalid, Bool.and_eq_true, decide_eq_true_eq]

/-- Settles O17: what recomputing leaves in each bit. -/
theorem fexVxComputed : Obligations.FexVxComputed := by
  intro s
  refine ⟨fun b hb => ?_, ?_, ?_⟩
  · simp only [isComputed, Bool.or_eq_false_iff, beq_eq_false_iff_ne] at hb
    rw [State.fpscrNow, srcBit_fpscrRecomputed, if_neg hb.2, if_neg hb.1]
  · rw [State.fpscrNow, srcBit_fpscrRecomputed, if_pos rfl]
    exact fpscrVX_iff s.fpscr
  · rw [State.fpscrNow, srcBit_fpscrRecomputed, srcBit_fpscrRecomputed]
    rfl

/-- What a move leaves in each bit of FPSCR, in source numbering: XX (6) takes in a written FI (14)
where it is not written itself (R59, log 44); FEX and VX are not written. -/
theorem srcBit_fpscrMoved (f mask v : Word) (b : RegNum) :
    srcBit (fpscrMoved f mask v) b =
      if b = 6 ∧ srcBit mask 14 = true ∧ srcBit mask 6 = false then srcBit f 6 || srcBit v 14
      else if srcBit mask b = true ∧ isComputed b = false then srcBit v b else srcBit f b := by
  have hb := b.isLt
  have h25 : 31 - b.toNat = 25 ↔ b = 6 := by
    rw [← BitVec.toNat_inj]
    simp
    omega
  rw [srcBit, fpscrMoved_getLsbD]
  simp only [h25]
  have hmask : (mask &&& ~~~fpscrComputed).getLsbD (31 - b.toNat) = true ↔
      srcBit mask b = true ∧ isComputed b = false := by
    have := srcBit_and mask (~~~fpscrComputed) b
    rw [srcBit_not, srcBit_fpscrComputed] at this
    rw [← srcBit_eq, this]
    simp
  simp only [hmask]
  rfl

/-- A move to FPSCR with MSR[FP] = 1 and floating-point exceptions disabled: FPSCR, the record form
(R307) and pc. -/
theorem fpscrMove_spec {s : State} (hfp : s.msrBit msrFP = true) (h0 : s.msrBit msrFE0 = false)
    (h1 : s.msrBit msrFE1 = false) (mask v : Word) (rc : Bool) :
    ∃ t, s.ifFp ((s.writeFpscr mask v).recordCr1 rc).fpDone = .next t ∧
      t.fpscr = fpscrMoved s.fpscr mask v ∧ recordedFp s t rc ∧ sameMemory s t ∧
      t = { s with cr := t.cr, fpscr := t.fpscr, pc := s.nextPc } := by
  have hquiet : ((s.writeFpscr mask v).recordCr1 rc).feEnabled = false := by
    simp only [State.feEnabled, State.msrBit, State.recordCr1_msr, State.writeFpscr_msr]
    exact Bool.or_eq_false_iff.mpr ⟨h0, h1⟩
  have hdone : ((s.writeFpscr mask v).recordCr1 rc).fpDone =
      .next ((s.writeFpscr mask v).recordCr1 rc).advance := by
    rw [State.fpDone, hquiet, Bool.and_false]
    rfl
  refine ⟨_, (if_pos hfp).trans hdone, ?_, ?_, fun a => ?_, ?_⟩
  all_goals cases rc
  case refine_2.true =>
    refine ⟨fun h => (by cases h), fun _ => ⟨field4_setField4_same _ _ _, fun g hg => ?_⟩⟩
    exact field4_setField4_of_ne _ _ hg
  case refine_2.false => exact ⟨fun _ => rfl, fun h => by cases h⟩
  all_goals rfl

/-- Settles O19: the masks of the two moves, bit by bit. -/
theorem fpscrFieldWrites : Obligations.FpscrFieldWrites := by
  intro d imm fm frb rc s hfp h0 h1
  constructor
  · obtain ⟨t, ht, hf, hrest⟩ := fpscrMove_spec hfp h0 h1 (fieldMask d) (setField4 0 d imm) rc
    refine ⟨t, ht, fun b => ?_, hrest⟩
    rw [hf, srcBit_fpscrMoved]
    simp only [srcBit_fieldMask, srcBit_setField4, srcBit_zero, decide_eq_true_eq,
      decide_eq_false_iff_not]
    by_cases h6 : b = 6 ∧ d = 3
    · obtain ⟨rfl, rfl⟩ := h6
      rfl
    · have hd : ¬(b = 6 ∧ (14 : RegNum).toNat / 4 = d.toNat ∧ ¬(6 : RegNum).toNat / 4 = d.toNat) :=
        fun h => h6 ⟨h.1, BitVec.eq_of_toNat_eq h.2.1.symm⟩
      rw [if_neg hd, if_neg h6]
      split
      · rename_i h
        exact if_pos h.1
      · rfl
  · obtain ⟨t, ht, hf, hrest⟩ := fpscrMove_spec hfp h0 h1 (fieldsMask fm) (lo32 (s.getFpr frb)) rc
    refine ⟨t, ht, fun b => ?_, hrest⟩
    rw [hf, srcBit_fpscrMoved]
    simp only [srcBit_fieldsMask]
    by_cases h6 : b = 6
    · subst h6
      have hfield : fm.getLsbD (7 - (6 : RegNum).toNat / 4) = fm.getLsbD 6 := rfl
      have hfi : fm.getLsbD (7 - (14 : RegNum).toNat / 4) = fm.getLsbD 4 := rfl
      rw [hfield, hfi]
      cases fm.getLsbD 6 <;> cases fm.getLsbD 4 <;> rfl
    · simp only [h6, false_and, if_false]

/-- The mask of one bit. -/
theorem srcBit_bitMask (d b : RegNum) : srcBit (setSrcBit 0 d true) b = (b == d) := by
  rw [srcBit_setSrcBit, srcBit_zero]
  by_cases h : b = d <;> simp [h]

/-- Setting the bits of a mask, of which XX takes in FI. -/
theorem srcBit_fpscrMoved_ones (f mask : Word) (b : RegNum) :
    srcBit (fpscrMoved f mask mask) b =
      (srcBit f b || (srcBit mask b && !isComputed b) || (b == 6 && srcBit mask 14)) := by
  rw [srcBit_fpscrMoved]
  by_cases h6 : b = 6
  · subst h6
    cases srcBit mask 14 <;> cases srcBit mask 6 <;> cases srcBit f 6 <;> rfl
  · have hb : (b == 6) = false := beq_eq_false_iff_ne.mpr h6
    rw [hb, if_neg (fun h => h6 h.1)]
    cases srcBit mask b <;> cases isComputed b <;> cases srcBit f b <;> rfl

/-- Some exception bit goes from 0 to 1 (R52, R53). -/
theorem fpscrRaises_iff (old new : Word) :
    fpscrRaises old new = true ↔
      ∃ b : RegNum, srcBit new b = true ∧ srcBit old b = false ∧ isExc b = true := by
  rw [fpscrRaises, bne_iff_ne, ne_zero_iff_srcBit]
  simp only [srcBit_and, srcBit_not, srcBit_fpscrExc, Bool.and_eq_true, Bool.not_eq_true',
    and_assoc]

/-- Setting bit `d` raises an exception where `d` is an exception bit that was 0, or FI with XX 0
(R53, R59, log 44). -/
theorem fpscrRaises_setBit (f : Word) (d : RegNum) :
    fpscrRaises f (fpscrMoved f (setSrcBit 0 d true) (setSrcBit 0 d true)) =
      (isExc d && !srcBit f d || d == 14 && !srcBit f 6) := by
  have hexc : ∀ b, isExc b = true → isComputed b = false := by decide
  rw [Bool.eq_iff_iff, fpscrRaises_iff]
  simp only [srcBit_fpscrMoved_ones, srcBit_bitMask]
  constructor
  · rintro ⟨b, hnew, hold, he⟩
    simp only [hold, Bool.false_or, Bool.or_eq_true, Bool.and_eq_true, beq_iff_eq] at hnew
    obtain ⟨rfl, _⟩ | ⟨rfl, rfl⟩ := hnew
    · rw [he, hold]
      rfl
    · rw [hold]
      exact Bool.or_true _
  · intro h
    simp only [Bool.or_eq_true, Bool.and_eq_true, Bool.not_eq_true', beq_iff_eq] at h
    obtain ⟨he, hold⟩ | ⟨rfl, hold⟩ := h
    · exact ⟨d, by simp [hexc d he], hold, he⟩
    · exact ⟨6, by simp, hold, by decide⟩

/-- Settles O20: `mtfsb0` moves a 0 under the mask of its bit; `mtfsb1` sets that mask and, where it
raises an exception, FX. -/
theorem fpscrBitWrites : Obligations.FpscrBitWrites := by
  intro d rc s hfp h0 h1
  constructor
  · obtain ⟨t, ht, hf, hrest⟩ := fpscrMove_spec hfp h0 h1 (setSrcBit 0 d true) 0 rc
    refine ⟨t, ht, fun b => ?_, hrest⟩
    rw [hf, srcBit_fpscrMoved]
    simp only [srcBit_bitMask, srcBit_zero, Bool.or_false]
    rw [bne]
    split
    · rename_i h
      obtain ⟨rfl, _, hd⟩ := h
      rw [hd]
      exact (Bool.and_true _).symm
    · cases b == d <;> cases isComputed b <;> cases srcBit s.fpscr b <;> rfl
  · generalize hr : fpscrRaises s.fpscr (fpscrMoved s.fpscr (setSrcBit 0 d true)
      (setSrcBit 0 d true)) = raises
    have hraises := hr.symm.trans (fpscrRaises_setBit s.fpscr d)
    obtain ⟨t, ht, hf, hrest⟩ := fpscrMove_spec hfp h0 h1
      (setSrcBit 0 d true ||| if raises then fpscrFX else 0)
      (setSrcBit 0 d true ||| if raises then fpscrFX else 0) rc
    have hmask : ∀ b, srcBit (setSrcBit 0 d true ||| if raises then fpscrFX else 0) b =
        (b == d || b == 0 && raises) := fun b => by
      rw [srcBit_or, srcBit_bitMask, Bool.and_comm, ← srcBit_fpscrFX]
      cases raises
      · exact congrArg _ (srcBit_zero b)
      · rfl
    refine ⟨t, by rw [← ht, ← hr]; rfl, fun b => ?_, hrest⟩
    rw [hf, srcBit_fpscrMoved_ones, hmask, hmask, ← hraises, BEq.comm (a := 14)]
    have h14 : ((14 : RegNum) == 0) = false := rfl
    by_cases hb : b = 0
    · subst hb
      have h06 : ((0 : RegNum) == 6) = false := rfl
      have hc0 : isComputed 0 = false := rfl
      simp only [h14, h06, hc0, beq_self_eq_true, Bool.not_false, Bool.true_and, Bool.and_true,
        Bool.false_and, Bool.or_false, Bool.or_assoc]
    · simp only [h14, beq_eq_false_iff_ne.mpr hb, Bool.false_and, Bool.or_false]

end Sys2Proof.Machine

/-! The end of an arithmetic instruction (spec 41_cr_xer.md R276 to R294): what it leaves in rD, XER and
CR0; and the word multiplies and divides with it. -/

namespace Sys2Proof.Machine

open Statements

/-! ## CR0 -/

/-- The sign bit and the zero test of a result are those of the signed number of the mode (R44). -/
theorem modeInt_sign_zero (s : State) (r : DWord) :
    r.getLsbD (s.opWidth - 1) = decide (modeInt s r < 0) ∧
      (r.toNat % 2 ^ s.opWidth = 0 ↔ modeInt s r = 0) := by
  have hzero : ∀ {n : Nat} (v : BitVec n), v.toNat = 0 ↔ v.toInt = 0 := fun v => by
    rw [← BitVec.toInt_zero, BitVec.toInt_inj, ← BitVec.toNat_inj, BitVec.toNat_zero]
  unfold State.opWidth modeInt
  split
  · rw [← BitVec.msb_eq_toInt, ← hzero, Nat.mod_eq_of_lt r.isLt]
    exact ⟨(BitVec.msb_eq_getLsbD_last r).symm, Iff.rfl⟩
  · rw [← BitVec.msb_eq_toInt, ← hzero, lo32_toNat, BitVec.msb_eq_getLsbD_last]
    exact ⟨by simp [lo32], Iff.rfl⟩

theorem cr0Value_getLsbD (s : State) (r : DWord) (so : Bool) :
    (cr0Value s.opWidth r so).getLsbD 3 = decide (modeInt s r < 0) ∧
      (cr0Value s.opWidth r so).getLsbD 2 = decide (0 < modeInt s r) ∧
      (cr0Value s.opWidth r so).getLsbD 1 = decide (modeInt s r = 0) ∧
      (cr0Value s.opWidth r so).getLsbD 0 = so := by
  obtain ⟨hsign, hzero⟩ := modeInt_sign_zero s r
  obtain ⟨h3, h2, h1, h0⟩ := crBits_getLsbD (r.getLsbD (s.opWidth - 1))
    (!r.getLsbD (s.opWidth - 1) && decide (r.toNat % 2 ^ s.opWidth ≠ 0))
    (decide (r.toNat % 2 ^ s.opWidth = 0)) so
  refine ⟨h3.trans hsign, h2.trans ?_, h1.trans (decide_eq_decide.mpr hzero), h0⟩
  rw [hsign, ← decide_not, ← Bool.decide_and]
  exact decide_eq_decide.mpr (by rw [Ne, hzero]; omega)

/-- CR after an arithmetic instruction: CR0 with Rc = 1, with the final XER[SO] (R276). -/
theorem State.arith_cr (s : State) (rd : RegNum) (r : DWord) (oe ov rc undef : Bool) :
    (s.arith rd r oe ov rc undef).cr =
      if rc then setField4 s.cr 0
        (if undef then Config.freeCr0 s.draws ++ BitVec.ofBool (s.arith rd r oe ov rc undef).so
        else cr0Value s.opWidth (s.x r) (s.arith rd r oe ov rc undef).so)
      else s.cr := by
  cases rc <;> cases undef <;> cases oe <;> rfl

/-- The bits of CR0 and those of the other fields after CR0 is written. -/
theorem srcBit_setCr0 (w : Word) (v : BitVec 4) {b : RegNum} (hb : b.toNat < 4) :
    srcBit (setField4 w 0 v) b = v.getLsbD (3 - b.toNat) := by
  have h0 : b.toNat / 4 = (0 : FieldNum).toNat := Nat.div_eq_of_lt hb
  rw [srcBit_setField4, if_pos h0, Nat.mod_eq_of_lt hb]

theorem srcBit_setCr0_of_ge (w : Word) (v : BitVec 4) {b : RegNum} (hb : 4 ≤ b.toNat) :
    srcBit (setField4 w 0 v) b = srcBit w b := by
  rw [srcBit_setField4, if_neg]
  simp
  omega

/-- CR0 reports the register, its bits 0-2 open for an undefined result (R44, R45). -/
theorem State.arith_recorded (s : State) (rd : RegNum) (r : DWord) (oe ov rc undef : Bool) :
    recorded s (s.arith rd r oe ov rc undef) rc undef (s.x r) := by
  have hcr := s.arith_cr rd r oe ov rc undef
  refine ⟨fun hrc => ?_, fun hrc hu => ?_, fun hrc hu => ?_⟩
  · rw [hcr, hrc, if_neg Bool.false_ne_true]
  · obtain ⟨h3, h2, h1, h0⟩ := cr0Value_getLsbD s (s.x r) (s.arith rd r oe ov rc undef).so
    rw [if_pos hrc, if_neg (ne_true_of_eq_false hu)] at hcr
    rw [cr0Reports, hcr]
    exact ⟨(srcBit_setCr0 _ _ (by decide)).trans h3, (srcBit_setCr0 _ _ (by decide)).trans h2,
      (srcBit_setCr0 _ _ (by decide)).trans h1, (srcBit_setCr0 _ _ (by decide)).trans h0,
      fun _ => srcBit_setCr0_of_ge _ _⟩
  · rw [if_pos hrc, if_pos hu] at hcr
    rw [hcr]
    refine ⟨(srcBit_setCr0 _ _ (by decide)).trans ?_, fun _ => srcBit_setCr0_of_ge _ _⟩
    rw [BitVec.getLsbD_append]
    cases (s.arith rd r oe ov rc undef).so <;> rfl

/-! ## XER -/

theorem State.arith_xer (s : State) (rd : RegNum) (r : DWord) (oe ov rc undef : Bool) :
    (s.arith rd r oe ov rc undef).xer =
      if oe then putBit (putBit s.xer 30 ov) 31 (s.so || ov) else s.xer := by
  cases rc <;> cases undef <;> cases oe <;> rfl

/-- The OE rule (R290). -/
theorem State.arith_overflowRule (s : State) (rd : RegNum) (r : DWord) (oe ov rc undef : Bool) :
    overflowRule s (s.arith rd r oe ov rc undef) oe ov := by
  have hxer := s.arith_xer rd r oe ov rc undef
  refine ⟨fun hoe => ?_, fun hoe => ?_⟩
  · rw [if_neg (by simp [hoe])] at hxer
    simp [State.ov, State.so, hxer]
  · rw [if_pos hoe] at hxer
    rw [State.ov, State.so, hxer]
    simp only [putBit_getLsbD _ (show 31 < 32 by decide), putBit_getLsbD _ (show 30 < 32 by decide)]
    exact ⟨rfl, rfl⟩

/-- CA and the byte count stay (R279). -/
theorem State.arith_xerRestKept (s : State) (rd : RegNum) (r : DWord) (oe ov rc undef : Bool) :
    xerRestKept s (s.arith rd r oe ov rc undef) := by
  intro b h30 h31
  rw [State.arith_xer]
  split
  · rw [putBit_getLsbD _ (by decide), if_neg h31, putBit_getLsbD _ (by decide), if_neg h30]
  · rfl

/-! ## rD and the frame -/

theorem State.getGpr_arith_same (s : State) (rd : RegNum) (r : DWord) (oe ov rc undef : Bool) :
    (s.arith rd r oe ov rc undef).getGpr rd = s.x r := by
  rw [State.getGpr_arith, if_pos rfl]

theorem State.arith_frame (s : State) (rd : RegNum) (r : DWord) (oe ov rc undef : Bool) :
    arithFrame rd s (s.arith rd r oe ov rc undef) := by
  refine ⟨fun q hq => by rw [State.getGpr_arith, if_neg hq], fun a => ?_, ?_⟩
  · rw [State.arith_eq]
  · cases rc <;> cases undef <;> cases oe <;> rfl

/-- The low-order word of a register is that of the value written. -/
theorem State.lo32_x (s : State) (v : DWord) : lo32 (s.x v) = lo32 v := by
  apply BitVec.eq_of_toNat_eq
  rw [lo32_toNat, lo32_toNat, State.x, xlenOf_toNat]
  split
  · rw [Nat.mod_eq_of_lt v.isLt]
  · exact Nat.mod_mod _ _

/-- A word result is the low-order word of rD; the rest is open on 64 bits (R281, U27). -/
theorem State.lo32_getGpr_arith_wordResult (s : State) (rd : RegNum) (w : Word)
    (oe ov rc undef : Bool) :
    lo32 ((s.arith rd (s.wordResult w) oe ov rc undef).getGpr rd) = w := by
  rw [State.getGpr_arith_same, State.lo32_x, State.wordResult, lo32_joinWords]

/-- `recorded` in terms of rD. -/
theorem State.arith_recorded_getGpr (s : State) (rd : RegNum) (r : DWord)
    (oe ov rc undef : Bool) :
    recorded s (s.arith rd r oe ov rc undef) rc undef
      ((s.arith rd r oe ov rc undef).getGpr rd) := by
  rw [State.getGpr_arith_same]
  exact s.arith_recorded rd r oe ov rc undef

/-! ## Products -/

theorem hi32_toInt (v : DWord) : (hi32 v).toInt = v.toInt / 2 ^ 32 := by
  have := v.isLt
  rw [BitVec.toInt_eq_toNat_cond, BitVec.toInt_eq_toNat_cond, hi32_toNat]
  split <;> split <;> omega

/-- The high word of a signed product (R281). -/
theorem hi32_mul_toInt (a b : Word) :
    (hi32 (BitVec.ofInt 64 (a.toInt * b.toInt))).toInt = a.toInt * b.toInt / 2 ^ 32 := by
  have hle := BitVec.toInt_mul_toInt_le (x := a) (y := b)
  have hge := BitVec.le_toInt_mul_toInt (x := a) (y := b)
  rw [hi32_toInt, BitVec.toInt_ofInt_eq_self (by decide) (by omega) (by omega)]

/-- The high word of an unsigned product (R282). -/
theorem hi32_mul_toNat (a b : Word) :
    (hi32 (BitVec.ofNat 64 (a.toNat * b.toNat))).toNat = a.toNat * b.toNat / 2 ^ 32 := by
  have hlt : a.toNat * b.toNat < 2 ^ 32 * 2 ^ 32 := Nat.mul_lt_mul'' a.isLt b.isLt
  rw [hi32_toNat, BitVec.toNat_ofNat, Nat.mod_eq_of_lt (by omega)]

/-- Settles O8: the high word of the 64-bit product is the product divided by 2^32. -/
theorem multiplyHighResult : Obligations.MultiplyHighResult := by
  intro rd ra rb rc s
  refine ⟨⟨_, rfl, ?_, s.arith_recorded_getGpr _ _ _ _ _ _, s.arith_xer _ _ _ _ _ _,
    s.arith_frame _ _ _ _ _ _⟩, ⟨_, rfl, ?_, s.arith_recorded_getGpr _ _ _ _ _ _,
    s.arith_xer _ _ _ _ _ _, s.arith_frame _ _ _ _ _ _⟩⟩
  · rw [State.lo32_getGpr_arith_wordResult]
    exact hi32_mul_toInt _ _
  · rw [State.lo32_getGpr_arith_wordResult]
    exact hi32_mul_toNat _ _

/-! ## Quotients -/

/-- A quotient that a word holds (R283). -/
theorem ofInt_tdiv_toInt {a b : Word} (h : ¬(b.toInt = 0 ∨ (a.toInt = -2 ^ 31 ∧ b.toInt = -1))) :
    (BitVec.ofInt 32 (a.toInt.tdiv b.toInt)).toInt = a.toInt.tdiv b.toInt := by
  have hne : a ≠ BitVec.intMin 32 ∨ b ≠ -1#32 := by
    by_contra hc
    obtain ⟨ha, hb⟩ := not_or.mp hc
    rw [not_not.mp ha, not_not.mp hb] at h
    exact h (.inr ⟨by decide, by decide⟩)
  rw [← BitVec.toInt_sdiv_of_ne_or_ne a b hne, BitVec.ofInt_toInt]

/-- Settles O10: the quotient of the model is the rational one where a word holds it. -/
theorem divideWordResult : Obligations.DivideWordResult := by
  intro rd ra rb oe rc s
  refine ⟨⟨_, _, rfl, ?_, fun hbad => ?_, s.arith_overflowRule _ _ _ _ _ _,
    s.arith_recorded_getGpr _ _ _ _ _ _, s.arith_xerRestKept _ _ _ _ _ _,
    s.arith_frame _ _ _ _ _ _⟩, ⟨_, _, rfl, rfl, fun hbad => ?_, s.arith_overflowRule _ _ _ _ _ _,
    s.arith_recorded_getGpr _ _ _ _ _ _, s.arith_xerRestKept _ _ _ _ _ _,
    s.arith_frame _ _ _ _ _ _⟩⟩
  · rw [Bool.decide_or, Bool.decide_and]
  · rw [State.lo32_getGpr_arith_wordResult, hbad, if_neg Bool.false_ne_true]
    refine ofInt_tdiv_toInt (of_decide_eq_false ?_)
    rw [Bool.decide_or, Bool.decide_and, hbad]
  · rw [State.lo32_getGpr_arith_wordResult, hbad, if_neg Bool.false_ne_true,
      BitVec.toNat_ofNat]
    exact Nat.mod_eq_of_lt (Nat.lt_of_le_of_lt (Nat.div_le_self _ _) (s.gprWord ra).isLt)

end Sys2Proof.Machine

/-! Address translation (spec 20_memory.md R180 to R191): the match and the address of a BAT pair as
arithmetic, the pairs of an array by their index, the page-table search, and the segments. -/

namespace Sys2Proof.Machine

open Statements

/-! ## One BAT pair as arithmetic -/

/-- A BL of Table 2-12 is a mask of low-order ones (R131). -/
theorem batBL_eq_lowMask {u : DWord} (h : batBLValid (batBL u) = true) :
    ∃ k, k ≤ 11 ∧ batBL u = BitVec.ofNat 64 (2 ^ k - 1) ∧ batLength (batBL u) = 2 ^ (17 + k) := by
  have hlt : (batBL u).toNat < 2 ^ 11 := by
    have hmod : (batBL u).toNat = (u >>> 2).toNat % 2 ^ 11 :=
      and_lowMask_toNat (k := 11) (by decide) (u >>> 2)
    omega
  have hand : (batBL u).toNat &&& ((batBL u).toNat + 1) = 0 := by
    have h0 := congrArg BitVec.toNat (beq_iff_eq.mp h)
    rwa [BitVec.toNat_and, BitVec.toNat_add, Nat.mod_eq_of_lt (by simp; omega)] at h0
  rw [Nat.and_comm] at hand
  obtain ⟨k, hk⟩ := (Nat.and_sub_one_eq_zero_iff_isPowerOfTwo (Nat.succ_ne_zero _)).mp hand
  have hk11 : k ≤ 11 := by
    by_contra hgt
    have := Nat.pow_le_pow_right (n := 2) (by decide) (show 12 ≤ k by omega)
    omega
  refine ⟨k, hk11, BitVec.eq_of_toNat_eq ?_, ?_⟩
  · rw [BitVec.toNat_ofNat]
    omega
  · rw [batLength, ← Nat.succ_eq_add_one, hk, Nat.pow_add]

theorem batBRPN_toNat (l : DWord) : (batBRPN l).toNat = l.toNat / 2 ^ 17 := by
  rw [batBRPN, BitVec.toNat_ushiftRight, Nat.shiftRight_eq_div_pow]

/-- A value with no bit under a mask of `k` low-order ones is a multiple of 2^k. -/
theorem mod_eq_zero_of_and_lowMask {v : DWord} {k : Nat} (hk : k ≤ 64)
    (h : v &&& BitVec.ofNat 64 (2 ^ k - 1) = 0) : v.toNat % 2 ^ k = 0 := by
  rw [← and_lowMask_toNat hk, h]
  rfl

/-- The address matches BEPI in the bits BL leaves exactly where the pair's area holds it (R183). -/
theorem batAddrMatch_iff {u ea : DWord} (hbl : batBLValid (batBL u) = true)
    (hbepi : batBEPI u &&& batBL u = 0) :
    batAddrMatch u ea = true ↔
      ea.toNat / batLength (batBL u) = (batBEPI u).toNat * 2 ^ 17 / batLength (batBL u) := by
  obtain ⟨k, hk, hmask, hlen⟩ := batBL_eq_lowMask hbl
  rw [hmask] at hbepi
  have hmod := mod_eq_zero_of_and_lowMask (by omega) hbepi
  have hpos := Nat.two_pow_pos k
  rw [batAddrMatch, hlen, hmask, beq_iff_eq, ← BitVec.toNat_inj, and_not_lowMask_toNat (by omega),
    BitVec.toNat_ushiftRight, Nat.shiftRight_eq_div_pow, Nat.pow_add, ← Nat.div_div_eq_div_mul,
    Nat.mul_comm (2 ^ 17), Nat.mul_div_mul_right _ _ (by decide)]
  constructor
  · intro h
    rw [← h, Nat.mul_div_cancel_left _ hpos]
  · intro h
    rw [h, Nat.mul_div_cancel' (Nat.dvd_of_mod_eq_zero hmod)]

/-- The address a matching pair gives: the block's base plus the offset in the area (R184). -/
theorem batPhysical_toNat {u l : DWord} (ea : DWord) (hbl : batBLValid (batBL u) = true)
    (hbrpn : batBRPN l &&& batBL u = 0) :
    (batPhysical u l ea).toNat =
      (batBRPN l).toNat * 2 ^ 17 + ea.toNat % batLength (batBL u) := by
  obtain ⟨k, hk, hmask, hlen⟩ := batBL_eq_lowMask hbl
  have hmod := mod_eq_zero_of_and_lowMask (by omega) (hmask ▸ hbrpn)
  have hbrpn' : (batBRPN l).toNat < 2 ^ 47 := by
    rw [batBRPN_toNat]
    have := l.isLt
    omega
  have hblock : (batBRPN l ||| (ea >>> 17 &&& batBL u)).toNat =
      (batBRPN l).toNat + ea.toNat / 2 ^ 17 % 2 ^ k := by
    have hand : batBRPN l &&& (ea >>> 17 &&& batBL u) = 0 := by
      rw [BitVec.and_comm (ea >>> 17), ← BitVec.and_assoc, hbrpn]
      exact BitVec.zero_and
    rw [← BitVec.add_eq_or_of_and_eq_zero _ _ hand, BitVec.toNat_add_of_and_eq_zero hand, hmask,
      and_lowMask_toNat (by omega), BitVec.toNat_ushiftRight, Nat.shiftRight_eq_div_pow]
  have hlt : (batBRPN l ||| (ea >>> 17 &&& batBL u)).toNat < 2 ^ 47 := by
    rw [BitVec.toNat_or]
    refine Nat.or_lt_two_pow hbrpn' (Nat.lt_of_le_of_lt Nat.and_le_left ?_)
    rw [BitVec.toNat_ushiftRight, Nat.shiftRight_eq_div_pow]
    have := ea.isLt
    omega
  have hoff : (ea &&& 0x1FFFF#64).toNat = ea.toNat % 2 ^ 17 :=
    and_lowMask_toNat (k := 17) (by decide) ea
  rw [batPhysical, BitVec.toNat_or, BitVec.toNat_shiftLeft, hoff, Nat.shiftLeft_eq,
    Nat.mod_eq_of_lt (by omega), ← Nat.shiftLeft_eq,
    ← Nat.shiftLeft_add_eq_or_of_lt (Nat.mod_lt _ (by decide)), Nat.shiftLeft_eq, hblock, hlen,
    Nat.pow_add, Nat.mod_mul]
  omega

/-! ## The pairs of an array -/

/-- The pair with this index is valid and its BEPI matches the address. -/
def State.batHits (s : State) (us : Vector DWord 4) (ea : DWord) (i : Fin 4) : Bool :=
  s.batValid us[i] && batAddrMatch us[i] ea

theorem batPairs_eq (us ls : Vector DWord 4) :
    batPairs us ls = (List.finRange 4).map fun i => (us[i], ls[i]) := rfl

/-- The valid pairs that match, by their indices. -/
theorem batPairs_filter (s : State) (us ls : Vector DWord 4) (ea : DWord) :
    ((batPairs us ls).filter fun p => s.batValid p.1).filter (fun p => batAddrMatch p.1 ea) =
      ((List.finRange 4).filter (s.batHits us ea)).map fun i => (us[i], ls[i]) := by
  rw [batPairs_eq, List.filter_filter, List.filter_map]
  congr 2
  funext i
  exact Bool.and_comm _ _

theorem batWellFormed_iff {u l : DWord} : batWellFormed u l = true ↔ pairSound u l := by
  simp only [batWellFormed, pairSound, Bool.and_eq_true, beq_iff_eq, and_assoc]

/-- Some valid pair breaks R131. -/
theorem batPairs_malformed_iff (s : State) (us ls : Vector DWord 4) :
    (((batPairs us ls).filter fun p => s.batValid p.1).any fun p => !batWellFormed p.1 p.2) = true ↔
      ∃ i : Fin 4, pairValid s us[i] = true ∧ ¬pairSound us[i] ls[i] := by
  rw [batPairs_eq]
  simp only [List.any_eq_true, List.mem_filter, List.mem_map, List.mem_finRange, true_and,
    Bool.not_eq_true', ← Bool.not_eq_true, batWellFormed_iff]
  constructor
  · rintro ⟨_, ⟨⟨i, rfl⟩, hv⟩, hw⟩
    exact ⟨i, hv, hw⟩
  · rintro ⟨i, hv, hw⟩
    exact ⟨_, ⟨⟨i, rfl⟩, hv⟩, hw⟩

theorem State.walk_of_malformed {s : State} {us ls : Vector DWord 4} (kind : AccessKind)
    (ea : DWord) (h : ∃ i : Fin 4, pairValid s us[i] = true ∧ ¬pairSound us[i] ls[i]) :
    s.walk us ls kind ea = .refused .batMalformed :=
  if_pos ((batPairs_malformed_iff s us ls).mpr h)

section Sound

variable {s : State} {us ls : Vector DWord 4}
  (hsound : ∀ i : Fin 4, pairValid s us[i] = true → pairSound us[i] ls[i])

include hsound

/-- Where every valid pair is sound, a hit is `pairHits`. -/
theorem State.batHits_iff (ea : DWord) (i : Fin 4) :
    s.batHits us ea i = true ↔ pairHits s us[i] ea := by
  rw [State.batHits, Bool.and_eq_true, pairHits]
  refine and_congr_right fun hv => ?_
  obtain ⟨hbl, hbepi, _⟩ := hsound i hv
  exact batAddrMatch_iff hbl hbepi

theorem batPairs_not_malformed :
    ¬(((batPairs us ls).filter fun p => s.batValid p.1).any
      fun p => !batWellFormed p.1 p.2) = true := by
  rw [batPairs_malformed_iff]
  rintro ⟨i, hv, hw⟩
  exact hw (hsound i hv)

/-- No pair holds the address: the segments decide. -/
theorem State.walk_of_no_hit (kind : AccessKind) {ea : DWord}
    (h : (List.finRange 4).filter (s.batHits us ea) = []) :
    s.walk us ls kind ea = s.segmentWalk kind ea := by
  simp only [State.walk]
  rw [if_neg (batPairs_not_malformed hsound), batPairs_filter, h]
  rfl

/-- One pair holds it: its protection decides (R185). -/
theorem State.walk_of_one_hit (kind : AccessKind) {ea : DWord} {k : Fin 4}
    (h : (List.finRange 4).filter (s.batHits us ea) = [k]) :
    s.walk us ls kind ea =
      if ppAllows kind (batPP ls[k]) then .phys (s.x (batPhysical us[k] ls[k] ea)) []
      else .fault .protection := by
  simp only [State.walk]
  rw [if_neg (batPairs_not_malformed hsound), batPairs_filter, h]
  rfl

/-- Two pairs hold it: a stop (U12). -/
theorem State.walk_of_two_hits (kind : AccessKind) {ea : DWord} {i j : Fin 4} {rest : List (Fin 4)}
    (h : (List.finRange 4).filter (s.batHits us ea) = i :: j :: rest) :
    s.walk us ls kind ea = .refused .batConflict := by
  simp only [State.walk]
  rw [if_neg (batPairs_not_malformed hsound), batPairs_filter, h]
  rfl

end Sound

/-- The one index that has a property. -/
theorem filter_finRange_unique {p : Fin 4 → Bool} {k : Fin 4} (hk : p k = true)
    (h : ∀ i, i ≠ k → p i = false) : (List.finRange 4).filter p = [k] := by
  have hp : p = (· == k) := by
    funext i
    by_cases hi : i = k
    · rw [hi, hk, beq_self_eq_true]
    · rw [h i hi, beq_eq_false_iff_ne.mpr hi]
  have hone : ∀ k : Fin 4, (List.finRange 4).filter (· == k) = [k] := by decide
  rw [hp, hone k]

/-- Two indices that have a property are two elements of the filtered list. -/
theorem filter_finRange_two {p : Fin 4 → Bool} {i j : Fin 4} (hij : i ≠ j) (hi : p i = true)
    (hj : p j = true) : ∃ a b rest, (List.finRange 4).filter p = a :: b :: rest := by
  have hmem : ∀ k, p k = true → k ∈ (List.finRange 4).filter p := fun k hk =>
    List.mem_filter.mpr ⟨List.mem_finRange k, hk⟩
  have hi' := hmem i hi
  have hj' := hmem j hj
  match h : (List.finRange 4).filter p with
  | [] => rw [h] at hi'; cases hi'
  | [a] =>
    rw [h, List.mem_singleton] at hi' hj'
    exact absurd (hi'.trans hj'.symm) hij
  | a :: b :: rest => exact ⟨a, b, rest, rfl⟩

/-- A store needs PP = 10, a load or fetch a PP other than 00 (R185). -/
theorem ppAllows_iff (kind : AccessKind) (pp : BitVec 2) :
    (ppAllows kind pp = true ↔ pp = 0b10 ∨ pp ≠ 0 ∧ kind ≠ .store) ∧
      (ppAllows kind pp = false ↔ pp = 0 ∨ pp ≠ 0b10 ∧ kind = .store) := by
  revert pp
  cases kind <;> decide

/-- A narrow value is below 2^XLEN. -/
theorem toNat_lt_of_narrow {c : Config} {v : DWord} (h : narrow c v = true) :
    v.toNat < 2 ^ (if c.xlen64 then 64 else 32) := by
  rw [← narrow_iff.mp h, xlenOf_toNat]
  exact Nat.mod_lt _ (Nat.two_pow_pos _)

/-- The physical address of a block fits, for a register and an address that fit. -/
theorem State.x_batPhysical_toNat (s : State) {u l ea : DWord} (hs : pairSound u l)
    (hl : narrow s.cfg l = true) (hea : narrow s.cfg ea = true) :
    (s.x (batPhysical u l ea)).toNat =
      (batBRPN l).toNat * 2 ^ 17 + ea.toNat % batLength (batBL u) := by
  obtain ⟨hbl, _, hbrpn⟩ := hs
  have hphys := batPhysical_toNat ea hbl hbrpn
  have hl' := toNat_lt_of_narrow hl
  have hea' := toNat_lt_of_narrow hea
  rw [State.x, xlenOf_toNat, hphys]
  by_cases hx : s.cfg.xlen64 = true
  · rw [if_pos hx, ← hphys]
    exact Nat.mod_eq_of_lt (batPhysical u l ea).isLt
  · rw [if_neg hx] at hl' hea' ⊢
    obtain ⟨k, hk, hmask, hlen⟩ := batBL_eq_lowMask hbl
    have hmod := mod_eq_zero_of_and_lowMask (by omega) (hmask ▸ hbrpn)
    rw [batBRPN_toNat] at hmod ⊢
    rw [hlen]
    refine Nat.mod_eq_of_lt ?_
    interval_cases k <;> omega

/-! ## The page-table search -/

theorem extractLsb'_toNat {w : Nat} (v : BitVec w) (start len : Nat) :
    (v.extractLsb' start len).toNat = v.toNat / 2 ^ start % 2 ^ len := by
  rw [BitVec.extractLsb'_toNat, Nat.shiftRight_eq_div_pow]

/-- A page and the byte offset in it (R188). -/
theorem pagePhysical_toNat (frame : BitVec 52) (ea : DWord) :
    (pagePhysical frame ea).toNat = frame.toNat * 2 ^ 12 + ea.toNat % 2 ^ 12 := by
  rw [pagePhysical, BitVec.toNat_append, ← Nat.shiftLeft_add_eq_or_of_lt (BitVec.isLt _),
    Nat.shiftLeft_eq, BitVec.extractLsb'_toNat]
  rfl

theorem State.inPageTable_iff (s : State) (a : Nat) :
    s.inPageTable a = true ↔ (sdr1TableBase s.cfg s.sdr1).toNat ≤ a ∧
      a < (sdr1TableBase s.cfg s.sdr1).toNat + sdr1TableBytes s.cfg s.sdr1 := by
  rw [State.inPageTable, Bool.and_eq_true, decide_eq_true_eq, decide_eq_true_eq]

section Search

variable {s : State} {kind : AccessKind} {page : PageName}
  (hwf : sdr1WellFormed s.cfg s.sdr1 = true)
  (hall : ∀ r ∈ s.searchRefs page
      (Config.freePageSearch ⟨kind, s.user, page, s.sdr1, s.mem, s.draws⟩), present s.cfg r = true)

include hwf hall

/-- A search that finds the page, with every reference present. -/
theorem State.pageWalk_of_found (ea : DWord) {frame : BitVec 52} {marks : List Host.Cell}
    (h : (Config.freePageSearch ⟨kind, s.user, page, s.sdr1, s.mem, s.draws⟩).result =
      .found frame marks) :
    s.pageWalk kind page ea =
      .phys (s.x (pagePhysical frame ea)) (s.pageMarks (.found frame marks)) := by
  simp only [State.pageWalk]
  rw [if_pos hwf, if_pos (List.all_eq_true.mpr hall), h]

/-- A search that fails, with every reference present. -/
theorem State.pageWalk_of_fault (ea : DWord) {f : PageFault}
    (h : (Config.freePageSearch ⟨kind, s.user, page, s.sdr1, s.mem, s.draws⟩).result = .fault f) :
    s.pageWalk kind page ea = .fault (faultSeen kind s.segmentRegisters f) := by
  simp only [State.pageWalk]
  rw [if_pos hwf, if_pos (List.all_eq_true.mpr hall), h]

end Search

/-- What a page-table search answers is as `searched` says, for a segment table at a multiple of 4096
and a segment-table search where the segment registers play no part. -/
theorem State.pageWalk_searched (s : State) (kind : AccessKind) (page : PageName) (ea : DWord)
    (htable : ∀ table p, page = .effective (some table) p → table.toNat % 2 ^ 12 = 0)
    (hregs : ∀ table p, page = .effective table p → s.segmentRegisters = false) :
    searched s kind page ea (s.pageWalk kind page ea) := by
  refine ⟨fun h => ?_, fun h a ha => ⟨fun r hr => ?_, fun hex => ?_, fun hall => ?_⟩⟩
  · simp [State.pageWalk, h]
  · obtain ⟨table, p, hp, o, rfl⟩ | ⟨n, hn, hin⟩ := State.searchRefs_cases s page a hr
    · refine .inl ⟨table, p, hp, o, ?_⟩
      have := htable table p hp
      have := table.isLt
      have := o.isLt
      rw [BitVec.toNat_add, BitVec.toNat_setWidth]
      omega
    · exact .inr ⟨n, hn, (s.inPageTable_iff n).mp hin⟩
  · have hnot : (s.searchRefs page a).all (present s.cfg) = false := by
      rw [List.all_eq_false]
      obtain ⟨r, hr, hp⟩ := hex
      exact ⟨r, hr, by simp [hp]⟩
    subst ha
    simp only [State.pageWalk]
    rw [if_pos h, if_neg (by rw [hnot]; exact Bool.false_ne_true)]
  · subst ha
    have hfault := fun f => State.pageWalk_of_fault (f := f) h hall ea
    refine ⟨fun frame marks hres => ⟨_, _, State.pageWalk_of_found h hall ea hres, ?_, fun c hc => ?_⟩,
      hfault _, hfault _, fun hres hk => ?_, fun table p hp => ⟨fun hres => ?_, fun hres => ?_⟩⟩
    · rw [State.x, xlenOf_toNat, pagePhysical_toNat]
      rfl
    · obtain ⟨hmem, hin⟩ := List.mem_filter.mp hc
      exact ⟨hmem, (s.inPageTable_iff c.1).mp hin⟩
    · rw [hfault _ hres, hk]
      rfl
    · rw [hfault _ hres, hregs table p hp]
      rfl
    · rw [hfault _ hres, hregs table p hp]
      rfl

/-! ## Segments -/

theorem virtualPage_toNat (w : Word) (ea : DWord) :
    ((virtualAddress w ea).extractLsb' 12 40).toNat =
      w.toNat % 2 ^ 24 * 2 ^ 16 + ea.toNat % 2 ^ 28 / 2 ^ 12 := by
  have hsr : (srVSID w).toNat = w.toNat % 2 ^ 24 := by
    rw [srVSID, extractLsb'_toNat]
    simp
  have hva : (virtualAddress w ea).toNat =
      w.toNat % 2 ^ 24 * 2 ^ 28 + (ea.toNat / 2 ^ 12 % 2 ^ 16 * 2 ^ 12 + ea.toNat % 2 ^ 12) := by
    rw [virtualAddress, BitVec.toNat_append, ← Nat.shiftLeft_add_eq_or_of_lt (BitVec.isLt _),
      BitVec.toNat_append, ← Nat.shiftLeft_add_eq_or_of_lt (BitVec.isLt _), Nat.shiftLeft_eq,
      Nat.shiftLeft_eq, hsr, extractLsb'_toNat, extractLsb'_toNat]
    simp
  rw [extractLsb'_toNat, hva]
  omega

/-- The segment register an address selects has T = 1: no page (R189). -/
theorem State.segmentWalk_of_directStore {s : State} (kind : AccessKind) {ea : DWord}
    (hregs : s.segmentRegisters = true) (hT : srT (s.getSr (srSelect ea)) = true) :
    s.segmentWalk kind ea = .fault .directStore := by
  simp only [State.segmentWalk]
  rw [if_pos hregs, if_pos hT]

/-- T = 0, and N = 1 for a fetch (R456). -/
theorem State.segmentWalk_of_noExecute {s : State} {ea : DWord}
    (hregs : s.segmentRegisters = true) (hT : srT (s.getSr (srSelect ea)) = false)
    (hN : srN (s.getSr (srSelect ea)) = true) :
    s.segmentWalk .fetch ea = .fault .noExecute := by
  simp only [State.segmentWalk]
  rw [if_pos hregs, hT, hN]
  rfl

/-- Any other access searches for the virtual page (R188). -/
theorem State.segmentWalk_of_memory {s : State} {kind : AccessKind} {ea : DWord}
    (hregs : s.segmentRegisters = true) (hT : srT (s.getSr (srSelect ea)) = false)
    (hN : srN (s.getSr (srSelect ea)) = false ∨ kind ≠ .fetch) :
    s.segmentWalk kind ea =
      s.pageWalk kind (.virtual (srKs (s.getSr (srSelect ea))) (srKp (s.getSr (srSelect ea)))
        ((virtualAddress (s.getSr (srSelect ea)) ea).extractLsb' 12 40)) ea := by
  have hN' : (srN (s.getSr (srSelect ea)) && kind == .fetch) = false := by
    rcases hN with hN | hN
    · rw [hN, Bool.false_and]
    · rw [beq_eq_false_iff_ne.mpr hN, Bool.and_false]
  simp only [State.segmentWalk]
  rw [if_pos hregs, hT, hN']
  rfl

/-- Without the segment registers and with ASR[V] = 0 there is no segment table (log 49). -/
theorem State.segmentWalk_of_noTable {s : State} (kind : AccessKind) (ea : DWord)
    (hregs : s.segmentRegisters = false) (hV : asrV s.cfg s.asr = false) :
    s.segmentWalk kind ea = s.pageWalk kind (.effective none (ea.extractLsb' 12 52)) ea := by
  simp only [State.segmentWalk]
  rw [hregs, hV]
  rfl

/-- With a valid one the search starts in it, where it is not in the first three pages (R191, U22). -/
theorem State.segmentWalk_of_table {s : State} (kind : AccessKind) (ea : DWord)
    (hregs : s.segmentRegisters = false) (hV : asrV s.cfg s.asr = true) :
    s.segmentWalk kind ea = if asrTableAllowed s.asr then
      s.pageWalk kind (.effective (some (asrTable s.asr)) (ea.extractLsb' 12 52)) ea
    else .refused .segmentTableReserved := by
  simp only [State.segmentWalk]
  rw [hregs, hV]
  rfl

theorem asrTable_toNat (v : DWord) : (asrTable v).toNat = v.toNat / 2 ^ 12 * 2 ^ 12 :=
  (and_not_lowMask_toNat (k := 12) (by decide) v).trans (Nat.mul_comm _ _)

theorem asrTableAllowed_iff (v : DWord) : asrTableAllowed v = true ↔ 2 < v.toNat / 2 ^ 12 := by
  rw [asrTableAllowed, decide_eq_true_eq, asrTable_toNat]
  omega

theorem effectivePage_toNat (ea : DWord) : (ea.extractLsb' 12 52).toNat = ea.toNat / 2 ^ 12 := by
  have := ea.isLt
  rw [extractLsb'_toNat]
  omega

/-- Settles O46: off, by definition; on, the four pairs by `State.batHits`, then the segments by the
register selected or the segment table. -/
theorem batTranslates : Obligations.BatTranslates := by
  refine ⟨fun s store ea => ⟨rfl, rfl⟩, fun us ls kind ea s => ⟨State.walk_of_malformed kind ea,
    fun hsound => ⟨fun k hk hother => ?_, fun i j hij hi hj => ?_, fun hnone => ?_⟩⟩,
    fun kind ea s => ⟨fun hregs w hw => ?_, fun hx hb hV hSF => ?_, fun hx hV => ?_⟩⟩
  · have hwalk := State.walk_of_one_hit hsound kind (filter_finRange_unique
      ((State.batHits_iff hsound ea k).mpr hk) fun i hi =>
        Bool.eq_false_of_not_eq_true fun hit => hother i hi ((State.batHits_iff hsound ea i).mp hit))
    obtain ⟨hallow, hdeny⟩ := ppAllows_iff kind (batPP ls[k])
    refine ⟨fun hpp hl hea => ⟨_, hwalk.trans (if_pos (hallow.mpr hpp)),
      s.x_batPhysical_toNat (hsound k hk.1) hl hea⟩, fun hpp => hwalk.trans (if_neg ?_)⟩
    rw [hdeny.mpr hpp]
    exact Bool.false_ne_true
  · obtain ⟨a, b, rest, h⟩ := filter_finRange_two hij ((State.batHits_iff hsound ea i).mpr hi)
      ((State.batHits_iff hsound ea j).mpr hj)
    exact State.walk_of_two_hits hsound kind h
  · refine State.walk_of_no_hit hsound kind (List.filter_eq_nil_iff.mpr fun i _ => ?_)
    rw [State.batHits_iff hsound]
    exact hnone i
  · have hregs' := s.segmentRegisters_iff.mpr hregs
    subst hw
    refine ⟨State.segmentWalk_of_directStore kind hregs', fun hT hN => ?_, fun hT hN =>
      ⟨_, virtualPage_toNat _ ea, ?_⟩⟩
    · rw [hN.2]
      exact State.segmentWalk_of_noExecute hregs' hT hN.1
    · rw [State.segmentWalk_of_memory hregs' hT hN]
      exact s.pageWalk_searched kind _ ea nofun nofun
  · have hregs : s.segmentRegisters = false := by
      simp [State.segmentRegisters, hx, hSF]
    have hV' : asrV s.cfg s.asr = false := by
      rw [asrV, Config.bridge, hx, hb, hV]
      rfl
    refine ⟨_, effectivePage_toNat ea, ?_⟩
    rw [State.segmentWalk_of_noTable kind ea hregs hV']
    exact s.pageWalk_searched kind _ ea nofun fun _ _ _ => hregs
  · have hV' : asrV s.cfg s.asr = true := by
      rcases hV with h | h <;> simp [asrV, Config.bridge, h]
    have hregs : s.segmentRegisters = false := by
      simp [State.segmentRegisters, hx, hV']
    have hwalk := State.segmentWalk_of_table kind ea hregs hV'
    refine ⟨fun hle => hwalk.trans (if_neg ?_), fun hlt => ⟨_, _, asrTable_toNat s.asr,
      effectivePage_toNat ea, ?_⟩⟩
    · rw [asrTableAllowed_iff]
      omega
    · rw [hwalk, if_pos ((asrTableAllowed_iff _).mpr hlt)]
      refine s.pageWalk_searched kind _ ea (fun table p hp => ?_) fun _ _ _ => hregs
      cases hp
      rw [asrTable_toNat]
      exact Nat.mul_mod_left _ _

end Sys2Proof.Machine

/-! Laws of memory (spec 20_memory.md R170, R172, log 5): a read after a write, after marks and after a
string of stores; memories that read alike; every step keeps the canonical form. -/

namespace Sys2Proof.Machine

open Statements

/-! ## One write -/

/-- A write leaves every other byte, whatever the form of the memory. -/
theorem Memory.read_write_of_ne {a b : Nat} (v : Byte) (h : b ≠ a) :
    ∀ m : List Host.Cell, Memory.read (Memory.write m a v) b = Memory.read m b
  | [] => by
    rw [Memory.write]
    split
    · rfl
    · exact if_neg (Ne.symm h)
  | (k, w) :: rest => by
    have hab : ∀ tail, Memory.read ((a, v) :: tail) b = Memory.read tail b :=
      fun _ => if_neg (Ne.symm h)
    simp only [Memory.write]
    split
    · split
      · rfl
      · exact hab _
    · split
      · rename_i hak
        have hkb : Memory.read ((k, w) :: rest) b = Memory.read rest b := if_neg (by omega)
        split
        · exact hkb.symm
        · exact (hab _).trans hkb.symm
      · simp only [Memory.read, Memory.read_write_of_ne v h rest]

/-- In a canonical memory the byte written is the byte read. -/
theorem Memory.read_write_same_above {a : Nat} (v : Byte) :
    ∀ {lo : Nat} {m : List Host.Cell}, Memory.wfAbove lo m = true →
      Memory.read (Memory.write m a v) a = v
  | _, [], _ => by
    rw [Memory.write]
    split
    · exact Eq.symm ‹_›
    · exact if_pos rfl
  | lo, (k, w) :: rest, hm => by
    simp only [Memory.wfAbove, Bool.and_eq_true, decide_eq_true_eq] at hm
    obtain ⟨⟨hk, hw⟩, hr⟩ := hm
    simp only [Memory.write]
    split
    · rename_i hak
      split
      · rename_i hv
        have hwf : Memory.wfAbove k ((k, w) :: rest) = true := by simp [Memory.wfAbove, hw, hr]
        rw [Memory.read_of_lt hak hwf, hv]
      · exact if_pos rfl
    · split
      · rename_i hak
        split
        · rename_i hv
          rw [Memory.read_of_lt (by omega) hr, hv]
        · exact if_pos rfl
      · rename_i hne
        rw [Memory.read, if_neg (Ne.symm hne), Memory.read_write_same_above v hr]

theorem Memory.read_write_same {m : List Host.Cell} (a : Nat) (v : Byte) (h : Memory.wf m = true) :
    Memory.read (Memory.write m a v) a = v :=
  Memory.read_write_same_above v h

/-! ## Memories that read alike -/

/-- The first cell of a canonical memory reads as its byte, which is not the unlisted one. -/
theorem Memory.read_head_ne {lo k : Nat} {v : Byte} {rest : List Host.Cell}
    (h : Memory.wfAbove lo ((k, v) :: rest) = true) :
    Memory.read ((k, v) :: rest) k ≠ Memory.unlisted := by
  simp only [Memory.wfAbove, Bool.and_eq_true, decide_eq_true_eq] at h
  rw [Memory.read, if_pos rfl]
  exact h.1.2

/-- A memory that reads like one with first cell at `k` lists nothing below `k`. -/
theorem Memory.head_le_of_read_eq {lo lo' k k' : Nat} {v v' : Byte} {m n : List Host.Cell}
    (hm : Memory.wfAbove lo ((k, v) :: m) = true) (hn : Memory.wfAbove lo' ((k', v') :: n) = true)
    (h : ∀ a, Memory.read ((k, v) :: m) a = Memory.read ((k', v') :: n) a) : k' ≤ k := by
  by_contra hlt
  simp only [Memory.wfAbove, Bool.and_eq_true, decide_eq_true_eq] at hn
  have hwf : Memory.wfAbove k' ((k', v') :: n) = true := by simp [Memory.wfAbove, hn]
  exact Memory.read_head_ne hm ((h k).trans (Memory.read_of_lt (by omega) hwf))

/-- Canonical memories that read alike are equal. -/
theorem Memory.eq_of_read_eq : ∀ {lo : Nat} {m n : List Host.Cell}, Memory.wfAbove lo m = true →
    Memory.wfAbove lo n = true → (∀ a, Memory.read m a = Memory.read n a) → m = n
  | _, [], [], _, _, _ => rfl
  | _, [], (k, _) :: _, _, hn, h => absurd (h k).symm (Memory.read_head_ne hn)
  | _, (k, _) :: _, [], hm, _, h => absurd (h k) (Memory.read_head_ne hm)
  | lo, (k, v) :: m, (k', v') :: n, hm, hn, h => by
    obtain rfl : k = k' := Nat.le_antisymm (Memory.head_le_of_read_eq hn hm fun a => (h a).symm)
      (Memory.head_le_of_read_eq hm hn h)
    obtain rfl : v = v' := by simpa [Memory.read] using h k
    simp only [Memory.wfAbove, Bool.and_eq_true, decide_eq_true_eq] at hm hn
    have hrest : m = n := Memory.eq_of_read_eq hm.2 hn.2 fun a => by
      by_cases ha : a = k
      · rw [Memory.read_of_lt (by omega) hm.2, Memory.read_of_lt (by omega) hn.2]
      · have ha' := h a
        rwa [Memory.read, Memory.read, if_neg (Ne.symm ha), if_neg (Ne.symm ha)] at ha'
    rw [hrest]

/-- Settles O47: a write by its two cases, and canonical memories by their first cells. -/
theorem memoryLaws : Obligations.MemoryLaws := by
  refine ⟨fun m a b v hm => ?_, fun m n => Memory.eq_of_read_eq⟩
  split
  · rename_i h
    rw [h, Memory.read_write_same a v hm]
  · exact Memory.read_write_of_ne v ‹_› m

/-! ## The canonical form is an invariant -/

theorem effect_keeps_memOk {data : Bool} {s t : State} (h : State.Effect data s t)
    (hs : s.memOk = true) : t.memOk = true := by
  cases h with
  | flags | setGpr | setFpr | advance | branch | setSr | moveMsr | returnTo | take | takeAccess
  | checkstop | external => exact hs
  | writeSpr r => cases r <;> exact hs
  | access marks =>
    rw [State.clobberData_eq]
    exact s.markPages_wf marks hs
  | storeBytes pas bytes => exact Memory.wf_writeAll pas bytes hs

/-- Settles O56: the boundary and a hard reset leave memory, the fetch marks it by writes, and every
update writes it or leaves it. -/
theorem stepKeepsMemory : Obligations.StepKeepsMemory := fun _ _ hs h =>
  step_keeps (Inv := fun s => s.memOk = true) (fun _ hs => hs) (fun _ hs => hs)
    (fun _ => State.clobberFetch_wf) (fun _ _ => effect_keeps_memOk) h hs

/-! ## Marks and stores -/

/-- Marks leave every byte they do not name. -/
theorem State.read_markPages_of_ne {a : Nat} : ∀ (marks : List Host.Cell) (s : State),
    (∀ c ∈ marks, c.1 ≠ a) → Memory.read (s.markPages marks).mem a = Memory.read s.mem a
  | [], _, _ => rfl
  | c :: cs, s, h =>
    (State.read_markPages_of_ne cs { s with mem := Memory.write s.mem c.1 c.2 } fun d hd =>
      h d (List.mem_cons_of_mem c hd)).trans
        (Memory.read_write_of_ne c.2 (Ne.symm (h c List.mem_cons_self)) s.mem)

/-- A string of stores leaves every byte at another address. -/
theorem Memory.read_writeAll_of_ne {a : Nat} : ∀ (as : List DWord) (vs : List Byte)
    (m : List Host.Cell), (∀ p ∈ as, a ≠ p.toNat) →
      Memory.read (Memory.writeAll m as vs) a = Memory.read m a
  | [], _, _, _ => rfl
  | _ :: _, [], _, _ => rfl
  | p :: as, v :: vs, m, h =>
    (Memory.read_writeAll_of_ne as vs _ fun q hq => h q (List.mem_cons_of_mem p hq)).trans
      (Memory.read_write_of_ne v (h p List.mem_cons_self) m)

/-- A string of stores at addresses that differ: each byte is read where it was stored. -/
theorem Memory.read_writeAll_same {pa : Nat → DWord} {v : Nat → Byte} {j : Nat} :
    ∀ (js : List Nat) {m : List Host.Cell}, Memory.wf m = true → j ∈ js →
      (∀ i ∈ js, (pa i).toNat = (pa j).toNat → i = j) →
      Memory.read (Memory.writeAll m (js.map pa) (js.map v)) (pa j).toNat = v j
  | i :: js, m, hm, hj, hinj => by
    simp only [List.map_cons, Memory.writeAll]
    by_cases hjs : j ∈ js
    · exact Memory.read_writeAll_same js (Memory.wf_write _ _ hm) hjs fun k hk =>
        hinj k (List.mem_cons_of_mem i hk)
    · obtain rfl : j = i := (List.mem_cons.mp hj).resolve_right hjs
      rw [Memory.read_writeAll_of_ne, Memory.read_write_same _ _ hm]
      intro p hp
      obtain ⟨k, hk, rfl⟩ := List.mem_map.mp hp
      intro he
      exact hjs (hinj k (List.mem_cons_of_mem _ hk) he.symm ▸ hk)

end Sys2Proof.Machine

/-! Accesses (spec 20_memory.md R172 to R197, 46_other_named.md R396, R397, R417): words at physical
addresses, the tests of a data access, what an access that passes them leaves, and the exceptions of
one that does not. -/

namespace Sys2Proof.Machine

open Statements

/-! ## Words at physical addresses -/

theorem bytesWord_toNat (b0 b1 b2 b3 : Byte) :
    (bytesWord b0 b1 b2 b3).toNat =
      b0.toNat * 2 ^ 24 + b1.toNat * 2 ^ 16 + b2.toNat * 2 ^ 8 + b3.toNat := by
  have h0 := b0.isLt
  have h1 := b1.isLt
  have h2 := b2.isLt
  have h3 := b3.isLt
  rw [bytesWord, BitVec.toNat_ofNat]
  omega

/-- A word read is the word its four bytes make (R172). -/
theorem State.readWord_toNat (s : State) (pa : Nat → DWord) :
    (s.readWord ((List.range 4).map pa)).toNat = wordAt s.mem pa :=
  bytesWord_toNat _ _ _ _

theorem zext_toNat (w : Word) : (zext w).toNat = w.toNat := by
  have := w.isLt
  rw [zext, BitVec.toNat_setWidth]
  omega

/-- A zero-extended word fits an XLEN-wide register. -/
@[simp] theorem State.x_zext (s : State) (w : Word) : s.x (zext w) = zext w := by
  have := w.isLt
  apply BitVec.eq_of_toNat_eq
  rw [State.x, xlenOf_toNat, zext_toNat]
  split <;> omega

theorem aligned4_iff (ea : DWord) : aligned4 ea = true ↔ ea.toNat % 4 = 0 := by
  have h : (ea &&& 3#64).toNat = ea.toNat % 4 := and_lowMask_toNat (k := 2) (by decide) ea
  rw [aligned4, beq_iff_eq, ← BitVec.toNat_inj, h]
  rfl

/-! ## The fetch -/

theorem State.wordAddrs_eq (s : State) (pa : DWord) :
    s.wordAddrs pa = (List.range 4).map fun j => s.x (pa + BitVec.ofNat 64 j) := by
  simp [State.wordAddrs, List.range_succ]

/-- A fetch whose bytes are present and were not stored to reads their word (R172, R202). -/
theorem State.fetch_of_phys {s : State} {pa : DWord} {marks : List Host.Cell}
    (hw : s.fetchWalk (s.ea s.pc) = .phys pa marks)
    (hp : ∀ a ∈ s.wordAddrs pa, present s.cfg a = true)
    (hs : ∀ a ∈ s.wordAddrs pa, a.toNat ∉ s.storedSinceSync) :
    s.fetch = .word (s.readWord (s.wordAddrs pa)) := by
  have hall : (s.wordAddrs pa).all (present s.cfg) = true := List.all_eq_true.mpr hp
  have hany : (s.wordAddrs pa).any (fun a => s.storedSinceSync.contains a.toNat) = false := by
    simpa [List.any_eq_false] using hs
  simp only [State.fetch, hw, hall, hany, Bool.not_true, Bool.false_eq_true, if_false]

theorem State.fetch_of_fault {s : State} {f : PageFault}
    (hw : s.fetchWalk (s.ea s.pc) = .fault f) : s.fetch = .isi (faultInfo f) := by
  rw [State.fetch, hw]

/-- Settles O50: the four addresses of the fetch are `at4`. -/
theorem fetchReadsMemory : Obligations.FetchReadsMemory := by
  rintro s pa marks at4 hw rfl hp hs
  refine ⟨fun hIR => ?_, _, State.fetch_of_phys hw ?_ ?_, ?_⟩
  · rw [State.fetchWalk, hIR] at hw
    cases hw
    rfl
  · simpa [State.wordAddrs_eq, allPresent] using hp
  · simpa [State.wordAddrs_eq] using hs
  · rw [State.wordAddrs_eq]
    exact s.readWord_toNat _

/-! ## The tests of a data access -/

/-- A breakpoint match (R196): the breakpoint is on for the access and the mode, and some byte is in
its double word. -/
theorem State.dabrMatch_iff {s : State} {store : Bool} {ea : DWord} {n : Nat} :
    s.dabrMatch store (s.byteEas ea n) = true ↔
      s.cfg.hasDabr = true ∧ dabrBT s.dabr = s.msrBit msrDR ∧
        (if store then dabrDW s.dabr else dabrDR s.dabr) = true ∧
        ∃ j, j < n ∧ (s.ea (ea + BitVec.ofNat 64 j)) >>> 3 = s.dabr >>> 3 := by
  simp only [State.dabrMatch, State.byteEas, dabrHits, Bool.and_eq_true, beq_iff_eq, List.any_map,
    List.any_eq_true, List.mem_range, Function.comp_apply, and_assoc]
  exact and_congr_right fun _ => and_congr_left fun _ => eq_comm

theorem State.dabrMatch_of_noBreakpoint {s : State} {store : Bool} {ea : DWord} {n : Nat}
    (h : noBreakpoint s store ea n) : s.dabrMatch store (s.byteEas ea n) = false := by
  refine Bool.eq_false_of_not_eq_true fun hm => ?_
  obtain ⟨hd, hbt, hrw, j, hj, hit⟩ := State.dabrMatch_iff.mp hm
  exact h hd hbt hrw j hj hit

/-- The bytes of an access, cut at one of them. -/
theorem State.byteEas_cut (s : State) (ea : DWord) {n j : Nat} (h : j < n) :
    ∃ rest, s.byteEas ea n = s.byteEas ea j ++ s.ea (ea + BitVec.ofNat 64 j) :: rest := by
  obtain ⟨m, rfl⟩ : ∃ m, n = j + (m + 1) := ⟨n - j - 1, by omega⟩
  refine ⟨(List.range m).map fun i => s.ea (ea + BitVec.ofNat 64 (j + (i + 1))), ?_⟩
  simp [State.byteEas, List.range_add, List.range_succ_eq_map, Function.comp_def]

section Fails

variable {s : State} {external store : Bool} {ea : DWord} {n : Nat}

/-- A breakpoint match ends a big-endian access (R196). -/
theorem State.translateAccess_of_breakpoint (hle : s.msrBit msrLE = false)
    (h : s.dabrMatch store (s.byteEas ea n) = true) :
    s.translateAccess external store ea n = .dsi ea (dsisrBreakpoint store) := by
  simp [State.translateAccess, hle, h]

/-- Without one, the first byte whose translation fails ends it. -/
theorem State.translateAccess_of_fault {j : Nat} {f : PageFault} (hle : s.msrBit msrLE = false)
    (hb : noBreakpoint s store ea n) (hj : j < n)
    (hbefore : ∀ k, k < j → ∃ pa marks,
      s.dataWalk store (s.ea (ea + BitVec.ofNat 64 k)) = .phys pa marks)
    (hf : s.dataWalk store (s.ea (ea + BitVec.ofNat 64 j)) = .fault f) :
    s.translateAccess external store ea n =
      failedAccess external store (s.ea (ea + BitVec.ofNat 64 j)) f := by
  obtain ⟨rest, hcut⟩ := s.byteEas_cut ea hj
  have hbytes : ∀ b ∈ s.byteEas ea j, ∃ pa marks, s.dataWalk store b = .phys pa marks := by
    intro b hb
    obtain ⟨k, hk, rfl⟩ := List.mem_map.mp hb
    exact hbefore k (List.mem_range.mp hk)
  simp only [State.translateAccess, hle, State.dabrMatch_of_noBreakpoint hb, Bool.false_eq_true,
    if_false]
  rw [hcut]
  exact State.translateBytes_of_fault hf rest _ hbytes

/-- An access to memory whose translation does not succeed ends as the translation does. -/
theorem State.accessBytes_of_not_ready
    (h : ∀ pas marks, s.translateAccess false store ea n ≠ .ready pas marks) :
    s.accessBytes store ea n = s.translateAccess false store ea n := by
  unfold State.accessBytes
  split
  · exact absurd ‹_› (h _ _)
  · rfl

end Fails

theorem State.accessWord_of_performed {s : State} {ea : DWord} (store : Bool)
    (h : ea.toNat % 4 = 0 ∨ s.cfg.alignment = .perform) :
    s.accessWord store ea = s.accessBytes store ea 4 := by
  refine if_pos ?_
  rw [Bool.or_eq_true, aligned4_iff, beq_iff_eq]
  exact h

theorem State.accessExternal_of_aligned {s : State} {ea : DWord} (store : Bool)
    (h : ea.toNat % 4 = 0) : s.accessExternal store ea = s.translateAccess true store ea 4 :=
  if_pos ((aligned4_iff ea).mpr h)

theorem State.externalAccess_of_enabled {s : State} (store : Bool) (ea : DWord)
    (h : srcBit s.ear 0 = true) : s.externalAccess store ea = s.accessExternal store ea :=
  if_pos h

theorem State.externalAccess_of_disabled {s : State} (store : Bool) (ea : DWord)
    (h : srcBit s.ear 0 = false) : s.externalAccess store ea = .dsi ea (dsisrExternal store) :=
  if_neg (Bool.eq_false_iff.mp h)

/-! ## The instructions that access data -/

/-- `d(rA)` as the obligations write it (R417). -/
theorem State.eaDisp_eq (s : State) (ra : RegNum) (d : BitVec 16) :
    s.eaDisp ra d = s.ea ((if ra = 0 then 0 else s.getGpr ra) + d.signExtend 64) := rfl

/-- `rA,rB` as the obligations write it (R391, R396). -/
theorem State.eaIndexed_eq (s : State) (ra rb : RegNum) :
    s.eaIndexed ra rb = s.ea ((if ra = 0 then 0 else s.getGpr ra) + s.getGpr rb) := rfl

theorem exec_lwz (rd ra : RegNum) (d : BitVec 16) (s : State) :
    exec (.lwz rd ra d) s = s.onAccess (s.accessWord false (s.eaDisp ra d)) fun pas t =>
      .next (t.setGpr rd (zext (t.readWord pas))).advance := rfl

/-- The forms of `lswx` that have a meaning (R391, U16), as the obligations write them. -/
theorem lswxInvalid_eq_false {rd ra rb : RegNum} {n : Nat} (ha : rd ≠ ra) (hb : rd ≠ rb)
    (h : ∀ k, k < (n + 3) / 4 →
      (ra ≠ 0 → rd + BitVec.ofNat 5 k ≠ ra) ∧ rd + BitVec.ofNat 5 k ≠ rb) :
    lswxInvalid rd ra rb n = false := by
  refine Bool.eq_false_of_not_eq_true fun hinv => ?_
  obtain he | he | ⟨k, hk, ⟨hra, he⟩ | he⟩ := lswxInvalid_iff.mp hinv
  · exact ha he
  · exact hb he
  · exact (h k hk).1 hra he
  · exact (h k hk).2 he

theorem exec_lswx_zero {rd ra rb : RegNum} {s : State}
    (hv : lswxInvalid rd ra rb s.byteCount = false) (hn : s.byteCount = 0) :
    exec (.lswx rd ra rb) s = .next (s.setGpr rd (Config.freeResult s.draws)).advance :=
  (if_neg (Bool.eq_false_iff.mp hv)).trans (if_pos hn)

theorem exec_lswx {rd ra rb : RegNum} {s : State}
    (hv : lswxInvalid rd ra rb s.byteCount = false) (hn : s.byteCount ≠ 0) :
    exec (.lswx rd ra rb) s =
      s.onAccess (s.accessBytes false (s.eaIndexed ra rb) s.byteCount) fun pas t =>
        .next (t.loadString rd (Memory.readAll t.mem pas)).advance :=
  (if_neg (Bool.eq_false_iff.mp hv)).trans (if_neg hn)

theorem exec_stswx_zero {rs ra rb : RegNum} {s : State} (hn : s.byteCount = 0) :
    exec (.stswx rs ra rb) s = .next s.advance := if_pos hn

theorem exec_stswx {rs ra rb : RegNum} {s : State} (hn : s.byteCount ≠ 0) :
    exec (.stswx rs ra rb) s =
      s.onAccess (s.accessBytes true (s.eaIndexed ra rb) s.byteCount) fun pas t =>
        .next (t.storeBytes pas (s.stringBytes rs s.byteCount)).advance := if_neg hn

theorem exec_eciwx {rd ra rb : RegNum} {s : State} (h : s.cfg.hasEar = true) :
    exec (.eciwx rd ra rb) s =
      s.onAccess (s.externalAccess false (s.eaIndexed ra rb)) fun pas t =>
        .next ({ t.sendExternal (pas.headD 0) none with extReplies := t.extReplies.tail }.setGpr rd
          (zext t.extReply)).advance := State.ifExists_of_there h _

theorem exec_ecowx {rs ra rb : RegNum} {s : State} (h : s.cfg.hasEar = true) :
    exec (.ecowx rs ra rb) s =
      s.onAccess (s.externalAccess true (s.eaIndexed ra rb)) fun pas t =>
        .next (t.sendExternal (pas.headD 0) (some (s.gprWord rs))).advance :=
  State.ifExists_of_there h _

/-! ## What an access leaves -/

/-- Memory with the marks of an access is as `marksOnly` says. -/
theorem marksOnly_of_mem {s t : State} {n : Nat} {marks : Nat → List Host.Cell}
    (h : t.mem = markedMem s n marks) : marksOnly s t n marks := by
  refine ⟨h, fun a ha => ?_⟩
  rw [h]
  refine State.read_markPages_of_ne _ s fun c hc => ?_
  obtain ⟨j, hj, hcj⟩ := List.mem_flatMap.mp hc
  exact ha j (List.mem_range.mp hj) c hcj

/-- An access that passes its tests marks memory, may modify SRR0 and SRR1 (R152), and goes on with
the instruction's own effect. -/
theorem State.onAccess_ready (s : State) (n : Nat) (marks : Nat → List Host.Cell) :
    ∃ v0 v1, srrKept s { s with srr0 := v0, srr1 := v1 } ∧ ∀ pas k,
      s.onAccess (.ready pas ((List.range n).flatMap marks)) k =
        k pas { s with mem := markedMem s n marks, srr0 := v0, srr1 := v1 } := by
  have hu := State.clobberData_eq (s.markPages ((List.range n).flatMap marks))
  refine ⟨_, _, fun hkept => ?_, fun pas k => congrArg (k pas) hu⟩
  have hc : (s.markPages ((List.range n).flatMap marks)).clobberData =
      s.markPages ((List.range n).flatMap marks) := by
    rcases hkept with hd | hc
    · exact State.clobberData_of_real hd
    · simp [State.clobberData, State.clobber, hc]
  rw [hc]
  exact ⟨rfl, rfl⟩

/-- Settles O40: the access is ready at the bytes' physical addresses, and its word goes to rD. -/
theorem lwzLoads : Obligations.LwzLoads := by
  rintro rd ra d _ pa marks s rfl hal hle hbp htr hpres
  obtain ⟨v0, v1, hsrr, hrun⟩ := s.onAccess_ready 4 marks
  rw [exec_lwz, State.eaDisp_eq, State.accessWord_of_performed false hal,
    State.accessBytes_of_phys hle (State.dabrMatch_of_noBreakpoint hbp) htr hpres, hrun]
  refine ⟨_, rfl, ?_, fun q hq => State.getGpr_setGpr_of_ne _ _ hq, marksOnly_of_mem rfl, hsrr, rfl⟩
  rw [State.getGpr_congr (State.advance_gpr _), State.getGpr_setGpr_same, State.x_zext, zext_toNat]
  exact State.readWord_toNat _ pa

/-- Settles O43: both accesses are ready at the translated addresses, the first of which is sent. -/
theorem externalControl : Obligations.ExternalControl := by
  rintro r ra rb _ pa marks s rfl hal hear hE hle
  have hready : ∀ store, noBreakpoint s store _ 4 → translates s store _ 4 pa marks →
      s.externalAccess store (s.eaIndexed ra rb) =
        .ready ((List.range 4).map pa) ((List.range 4).flatMap marks) := fun store hbp htr => by
    rw [State.externalAccess_of_enabled store _ hE, State.eaIndexed_eq,
      State.accessExternal_of_aligned store hal]
    exact State.translateAccess_of_phys hle (State.dabrMatch_of_noBreakpoint hbp) htr
  obtain ⟨v0, v1, hsrr, hrun⟩ := s.onAccess_ready 4 marks
  refine ⟨fun hbp htr => ?_, fun hbp htr => ?_⟩
  · rw [exec_eciwx hear, hready false hbp htr, hrun]
    refine ⟨_, rfl, fun v rest hv => ⟨?_, congrArg List.tail hv⟩, rfl,
      fun q hq => State.getGpr_setGpr_of_ne _ _ hq, marksOnly_of_mem rfl, hsrr, rfl⟩
    rw [State.getGpr_congr (State.advance_gpr _), State.getGpr_setGpr_same, State.x_zext,
      zext_toNat, State.extReply, hv]
    rfl
  · rw [exec_ecowx hear, hready true hbp htr, hrun]
    exact ⟨_, rfl, rfl, marksOnly_of_mem rfl, hsrr, rfl⟩

/-! ## Misaligned word accesses -/

section Misaligned

variable {s : State} {ea : DWord} (store : Bool) (h : ea.toNat % 4 ≠ 0)

include h

theorem aligned4_of_misaligned : aligned4 ea = false :=
  Bool.eq_false_iff.mpr fun ha => h ((aligned4_iff ea).mp ha)

theorem State.accessWord_of_refuse (hp : s.cfg.alignment = .refuse) :
    s.accessWord store ea = .refused .misaligned := by
  simp [State.accessWord, aligned4_of_misaligned h, hp]

theorem State.accessWord_of_trap (hp : s.cfg.alignment = .trap) :
    s.accessWord store ea = .alignment ea := by
  simp [State.accessWord, aligned4_of_misaligned h, hp]

theorem State.accessExternal_of_refuse (hp : s.cfg.alignment = .refuse) :
    s.accessExternal store ea = .refused .misaligned := by
  simp [State.accessExternal, aligned4_of_misaligned h, hp]

theorem State.accessExternal_of_not_refuse (hp : s.cfg.alignment ≠ .refuse) :
    s.accessExternal store ea = .alignment ea := by
  rw [State.accessExternal, aligned4_of_misaligned h]
  cases ha : s.cfg.alignment
  · rfl
  · rfl
  · exact absurd ha hp

end Misaligned

/-- The external control instructions, where they exist, test EAR[E] before their address. -/
theorem exec_external {i : Instr} {store : Bool} {r ra rb : RegNum} {s : State}
    (hi : i = .eciwx r ra rb ∧ store = false ∨ i = .ecowx r ra rb ∧ store = true)
    (hear : s.cfg.hasEar = true) :
    ∃ k, exec i s = s.onAccess (s.externalAccess store (s.eaIndexed ra rb)) k := by
  obtain ⟨rfl, rfl⟩ | ⟨rfl, rfl⟩ := hi
  · exact ⟨_, exec_eciwx hear⟩
  · exact ⟨_, exec_ecowx hear⟩

/-- An access that ends in the alignment exception changes what the entry changes, DAR and DSISR
(R434, R447). -/
theorem alignment_taken {s : State} {r : Result} {ea : DWord} (hea : s.ea ea = ea)
    (h : r = .next (s.takeAlignment ea)) :
    ∃ t, r = .next t ∧ entered s t .alignment s.pc 0 ∧ t.dar = ea ∧ sameMemory s t ∧
      t = { s with srr0 := t.srr0, srr1 := t.srr1, msr := t.msr, dar := t.dar, dsisr := t.dsisr,
                   pc := t.pc, storedSinceSync := [], lastExc := some .alignment } :=
  ⟨_, h, s.take_entered .alignment s.pc 0, hea, fun _ => rfl, rfl⟩

/-- Settles O45: the alignment test of `lwz` and of the external control accesses, by the policy. -/
theorem misalignedTraps : Obligations.MisalignedTraps := by
  rintro rd ra rb d s i ea (⟨rfl, rfl⟩ | ⟨hi, hear, hE, rfl⟩) hmis
  · rw [exec_lwz, State.eaDisp_eq]
    refine ⟨fun hp => ?_, fun hp => alignment_taken (s.ea_ea _) ?_⟩
    · rw [State.accessWord_of_refuse false hmis hp]
      rfl
    · rw [State.accessWord_of_trap false hmis (hp.resolve_right fun h => h.2 rfl)]
      rfl
  · obtain ⟨store, hi⟩ : ∃ store, i = .eciwx rd ra rb ∧ store = false ∨
        i = .ecowx rd ra rb ∧ store = true :=
      hi.elim (fun h => ⟨false, .inl ⟨h, rfl⟩⟩) fun h => ⟨true, .inr ⟨h, rfl⟩⟩
    obtain ⟨k, hk⟩ := exec_external hi hear
    rw [hk, State.externalAccess_of_enabled store _ hE, State.eaIndexed_eq]
    refine ⟨fun hp => ?_, fun hp => alignment_taken (s.ea_ea _) ?_⟩
    · rw [State.accessExternal_of_refuse store hmis hp]
      rfl
    · have hne : s.cfg.alignment ≠ .refuse := by
        rcases hp with hp | ⟨hp, _⟩ <;> rw [hp] <;> decide
      rw [State.accessExternal_of_not_refuse store hmis hne]
      rfl

/-! ## Storage exceptions -/

/-- An access that ends in a DSI changes what the entry changes, DAR and DSISR (R433, R447). -/
theorem dsi_taken {s : State} {r : Result} {ea : DWord} {cause : Word} (hea : s.ea ea = ea)
    (h : r = .next (s.takeDsi ea cause)) : ∃ t, r = .next t ∧ dsiTaken s t ea cause :=
  ⟨_, h, s.take_entered .dsi s.pc 0, hea, rfl, fun _ => rfl, rfl⟩

/-- The address of an access is an effective address of the mode. -/
theorem accesses_ea {i : Instr} {store : Bool} {ea : DWord} {n : Nat} {s : State}
    (h : accesses i store ea n s) : s.ea ea = ea := by
  obtain ⟨r, ra, rb, d, ⟨_, _, _, rfl, _⟩ | ⟨rfl, _⟩⟩ := h
  · exact s.ea_ea _
  · exact s.ea_ea _

/-- An instruction whose own tests are passed ends as the translation of its bytes does, where that
does not succeed. -/
theorem exec_of_failed_access {i : Instr} {store : Bool} {ea : DWord} {n : Nat} {s : State}
    (h : accesses i store ea n s) (hn : n ≠ 0)
    (hf : ∀ pas marks, s.translateAccess (isExternal i) store ea n ≠ .ready pas marks) :
    ∃ k, exec i s = s.onAccess (s.translateAccess (isExternal i) store ea n) k := by
  obtain ⟨r, ra, rb, d, ⟨rfl, rfl, rfl, rfl, hal⟩ | ⟨rfl, ⟨rfl, rfl, hcount, hd, hb, hregs⟩ |
    ⟨rfl, rfl, hcount⟩ | ⟨hi, rfl, hear, hE, hal⟩⟩⟩ := h
  · rw [exec_lwz, State.eaDisp_eq, State.accessWord_of_performed false hal,
      State.accessBytes_of_not_ready hf]
    exact ⟨_, rfl⟩
  · obtain rfl : n = s.byteCount := hcount.trans s.byteCount_eq.symm
    rw [exec_lswx (lswxInvalid_eq_false hd hb hregs) hn, State.eaIndexed_eq,
      State.accessBytes_of_not_ready hf]
    exact ⟨_, rfl⟩
  · obtain rfl : n = s.byteCount := hcount.trans s.byteCount_eq.symm
    rw [exec_stswx hn, State.eaIndexed_eq, State.accessBytes_of_not_ready hf]
    exact ⟨_, rfl⟩
  · obtain ⟨k, hk⟩ := exec_external hi hear
    have hext : isExternal i = true := by
      obtain ⟨rfl, _⟩ | ⟨rfl, _⟩ := hi <;> rfl
    rw [hk, hext, State.externalAccess_of_enabled store _ hE, State.eaIndexed_eq,
      State.accessExternal_of_aligned store hal]
    exact ⟨k, rfl⟩

/-- Where the translation of its bytes ends in a DSI, the instruction takes it. -/
theorem exec_dsi_of_accesses {i : Instr} {store : Bool} {ea dar : DWord} {n : Nat} {cause : Word}
    {s : State} (h : accesses i store ea n s) (hn : n ≠ 0) (hdar : s.ea dar = dar)
    (ht : s.translateAccess (isExternal i) store ea n = .dsi dar cause) :
    ∃ t, exec i s = .next t ∧ dsiTaken s t dar cause := by
  obtain ⟨k, hk⟩ := exec_of_failed_access h hn (by rw [ht]; exact nofun)
  rw [ht] at hk
  exact dsi_taken hdar hk

/-- The part of `DsiCauses` about one access: the breakpoint, then the first byte that fails. -/
theorem exec_storage_exceptions {i : Instr} {store : Bool} {ea b : DWord} {n j : Nat} {s : State}
    (h : accesses i store ea n s) (hle : s.msrBit msrLE = false) (hj : j < n)
    (hb : b = s.ea (ea + BitVec.ofNat 64 j)) :
    (s.dabrMatch store (s.byteEas ea n) = true →
      ∃ t, exec i s = .next t ∧ dsiTaken s t ea (dsisrBreakpoint store)) ∧
    (noBreakpoint s store ea n →
      (∀ k, k < j → ∃ pa marks, s.dataWalk store (s.ea (ea + BitVec.ofNat 64 k)) = .phys pa marks) →
      ∀ f, s.dataWalk store b = .fault f →
        ((f = .directStore → isExternal i = true) →
          ∃ t, exec i s = .next t ∧ dsiTaken s t b (faultDsisr store f)) ∧
        (f = .directStore → isExternal i = false → exec i s = .refused .directStore)) := by
  have hn : n ≠ 0 := by omega
  subst hb
  refine ⟨fun hm => exec_dsi_of_accesses h hn (accesses_ea h)
    (State.translateAccess_of_breakpoint hle hm), fun hbp hbefore f hf => ?_⟩
  have ht := State.translateAccess_of_fault (external := isExternal i) hle hbp hj hbefore hf
  refine ⟨fun hext => exec_dsi_of_accesses h hn (s.ea_ea _) (ht.trans (failedAccess_eq hext)),
    fun hds hext => ?_⟩
  rw [failedAccess, if_pos ⟨hds, hext⟩] at ht
  obtain ⟨k, hk⟩ := exec_of_failed_access h hn (by rw [ht]; exact nofun)
  rw [hk, ht]
  rfl

/-- DSISR of the failures that every data access reports alike (R447). -/
theorem faultDsisr_of_mem (store : Bool) : ∀ p ∈ [(PageFault.noPage, (0x40000000 : Word)),
    (.protection, 0x08000000), (.noSegment, 0x00200000)],
    p.1 ≠ .directStore ∧ faultDsisr store p.1 = p.2 ||| if store then 0x02000000 else 0 := by
  cases store <;> decide

/-- DSISR of an external control access to a direct-store segment (R433, R447). -/
theorem faultDsisr_directStore (store : Bool) :
    faultDsisr store .directStore = 0x04000000 ||| if store then 0x02000000 else 0 := by
  cases store <;> rfl

/-- SRR1 of an ISI (R448). -/
theorem faultInfo_of_mem : ∀ p ∈ [(PageFault.noPage, (0x40000000 : DWord)),
    (.noExecute, 0x10000000), (.protection, 0x08000000), (.noSegment, 0x00200000),
    (.directStore, 0x10000000)], faultInfo p.1 = p.2 := by
  decide

/-- A fetch whose translation fails takes the ISI (R448, R456). -/
theorem step_isi {s t : State} {f : PageFault} (hq : quietBoundary s t)
    (hf : t.fetchWalk (t.ea t.pc) = .fault f) :
    ∃ u, step s = .next u ∧ entered t u .isi t.pc (faultInfo f) ∧ sameMemory t u ∧
      u = { t with srr0 := u.srr0, srr1 := u.srr1, msr := u.msr, pc := u.pc, storedSinceSync := [],
                   lastExc := some .isi } := by
  rw [step_of_quietBoundary hq, State.runInstr, State.fetch_of_fault hf]
  exact ⟨_, rfl, t.take_entered .isi t.pc _, fun _ => rfl, rfl⟩

/-- Settles O44: EAR[E] = 0 before the access, then `exec_storage_exceptions`; the fetch by
`step_isi`. -/
theorem dsiCauses : Obligations.DsiCauses := by
  refine ⟨?_, fun i store ea n j s h hle hj b hb => ?_, fun s t hq p hp hf => ?_⟩
  · rintro r ra rb _ s rfl hear hE
    rw [exec_eciwx hear, exec_ecowx hear, State.externalAccess_of_disabled _ _ hE,
      State.externalAccess_of_disabled _ _ hE]
    exact ⟨dsi_taken (s.ea_ea _) rfl, dsi_taken (s.ea_ea _) rfl⟩
  · obtain ⟨hbreak, hfail⟩ := exec_storage_exceptions h hle hj hb
    refine ⟨fun hd hbt hrw hit => ?_, fun hbp hbefore p hp hf => ?_, fun hbp hbefore hf => ?_⟩
    · exact hbreak (State.dabrMatch_iff.mpr ⟨hd, hbt, hrw, j, hj, hb ▸ hit⟩)
    · obtain ⟨hne, hcause⟩ := faultDsisr_of_mem store p hp
      rw [← hcause]
      exact (hfail hbp hbefore p.1 hf).1 fun hds => absurd hds hne
    · obtain ⟨hdsi, hstop⟩ := hfail hbp hbefore .directStore hf
      refine ⟨fun hext => ?_, hstop rfl⟩
      rw [← faultDsisr_directStore]
      exact hdsi fun _ => hext
  · rw [← faultInfo_of_mem p hp]
    exact step_isi hq hf

end Sys2Proof.Machine

/-! Strings (spec 46_other_named.md R391, R392): translation keeps the byte offset in a page, so the
bytes of a string are stored at addresses that differ; the registers a loaded string fills. -/

namespace Sys2Proof.Machine

open Statements

/-! ## Translation keeps the offset in a page -/

theorem State.x_toNat_mod_page (s : State) (v : DWord) :
    (s.x v).toNat % 2 ^ 12 = v.toNat % 2 ^ 12 := by
  rw [State.x, xlenOf_toNat]
  split <;> omega

theorem State.ea_toNat_mod_page (s : State) (v : DWord) :
    (s.ea v).toNat % 2 ^ 12 = v.toNat % 2 ^ 12 := by
  rw [State.ea_toNat]
  split <;> omega

/-- A sound pair keeps the offset in its area, which is a multiple of 128 Kbytes (R131, R184). -/
theorem batPhysical_toNat_mod_page {u l : DWord} (ea : DWord) (h : pairSound u l) :
    (batPhysical u l ea).toNat % 2 ^ 12 = ea.toNat % 2 ^ 12 := by
  obtain ⟨hbl, _, hbrpn⟩ := h
  have hdvd : 2 ^ 12 ∣ batLength (batBL u) := Dvd.dvd.mul_right (by decide) _
  rw [batPhysical_toNat ea hbl hbrpn, Nat.add_mod, Nat.mod_mod_of_dvd _ hdvd]
  omega

theorem State.segmentWalk_phys_mod_page {s : State} {kind : AccessKind} {ea pa : DWord}
    {marks : List Host.Cell} (h : s.segmentWalk kind ea = .phys pa marks) :
    pa.toNat % 2 ^ 12 = ea.toNat % 2 ^ 12 := by
  obtain ⟨_, _, _, hw⟩ | ⟨_, _, hw⟩ | ⟨_, _, _, hw⟩ | ⟨page, hw⟩ := s.segmentWalk_cases kind ea
  · cases hw.symm.trans h
  · cases hw.symm.trans h
  · cases hw.symm.trans h
  · obtain ⟨frame, ms, hp, _⟩ | ⟨f, hp, _⟩ | ⟨hp, _⟩ | ⟨_, hp⟩ := s.pageWalk_cases kind page ea
    · cases (hw.trans hp).symm.trans h
      rw [State.x_toNat_mod_page, pagePhysical_toNat]
      omega
    · cases (hw.trans hp).symm.trans h
    · cases (hw.trans hp).symm.trans h
    · cases (hw.trans hp).symm.trans h

theorem State.walk_phys_mod_page {s : State} {us ls : Vector DWord 4} {kind : AccessKind}
    {ea pa : DWord} {marks : List Host.Cell} (h : s.walk us ls kind ea = .phys pa marks) :
    pa.toNat % 2 ^ 12 = ea.toNat % 2 ^ 12 := by
  by_cases hsound : ∀ i : Fin 4, pairValid s us[i] = true → pairSound us[i] ls[i]
  · match hhits : (List.finRange 4).filter (s.batHits us ea) with
    | [] =>
      rw [State.walk_of_no_hit hsound kind hhits] at h
      exact State.segmentWalk_phys_mod_page h
    | [k] =>
      have hk : s.batHits us ea k = true :=
        (List.mem_filter.mp (hhits ▸ List.mem_singleton_self k)).2
      rw [State.walk_of_one_hit hsound kind hhits] at h
      split at h
      · cases h
        rw [State.x_toNat_mod_page]
        exact batPhysical_toNat_mod_page ea (hsound k ((State.batHits_iff hsound ea k).mp hk).1)
      · cases h
    | i :: j :: rest => cases (State.walk_of_two_hits hsound kind hhits).symm.trans h
  · have hbad : ∃ i : Fin 4, pairValid s us[i] = true ∧ ¬pairSound us[i] ls[i] := by
      simpa using hsound
    cases (State.walk_of_malformed kind ea hbad).symm.trans h

/-- The physical address of a data access has the offset of its effective address (R184, R188). -/
theorem State.dataWalk_phys_mod_page {s : State} {store : Bool} {ea pa : DWord}
    {marks : List Host.Cell} (h : s.dataWalk store ea = .phys pa marks) :
    pa.toNat % 2 ^ 12 = ea.toNat % 2 ^ 12 := by
  unfold State.dataWalk at h
  split at h
  · exact State.walk_phys_mod_page h
  · cases h
    rfl

/-- The bytes of a string, which is shorter than a page, have different physical addresses. -/
theorem translates_injective {s : State} {store : Bool} {ea : DWord} {n : Nat} {pa : Nat → DWord}
    {marks : Nat → List Host.Cell} (h : translates s store ea n pa marks) (hn : n < 128) {i j : Nat}
    (hi : i < n) (hj : j < n) (he : (pa i).toNat = (pa j).toNat) : i = j := by
  have hoff : ∀ k, k < n → (pa k).toNat % 2 ^ 12 = (ea.toNat + k) % 2 ^ 12 := fun k hk => by
    rw [State.dataWalk_phys_mod_page (h k hk), State.ea_toNat_mod_page, BitVec.toNat_add,
      BitVec.toNat_ofNat]
    omega
  have hoffi := hoff i hi
  have hoffj := hoff j hj
  omega

theorem State.byteCount_lt (s : State) : s.byteCount < 128 := by
  rw [State.byteCount_eq]
  exact Nat.mod_lt _ (by decide)

/-- Settles O42: the bytes are stored at different addresses, so each is read where it was stored. -/
theorem stswxStores : Obligations.StswxStores := by
  rintro rs ra rb _ n pa marks s hn rfl hmem hle hbp htr hpres
  obtain rfl : n = s.byteCount := hn.trans s.byteCount_eq.symm
  obtain ⟨v0, v1, hsrr, hrun⟩ := s.onAccess_ready s.byteCount marks
  by_cases h0 : s.byteCount = 0
  · rw [exec_stswx_zero h0]
    refine ⟨_, rfl, fun k hk => absurd hk (by omega), fun a _ => ⟨?_, fun _ => rfl⟩,
      fun _ => ⟨rfl, rfl⟩, rfl⟩
    rw [h0]
    rfl
  · rw [exec_stswx h0, State.eaIndexed_eq,
      State.accessBytes_of_phys hle (State.dabrMatch_of_noBreakpoint hbp) htr hpres, hrun]
    refine ⟨_, rfl, fun k hk => ?_, fun a ha => ?_, hsrr, rfl⟩
    · exact Memory.read_writeAll_same (List.range s.byteCount) (s.markPages_wf _ hmem)
        (List.mem_range.mpr hk) fun i hi he =>
          translates_injective htr s.byteCount_lt (List.mem_range.mp hi) hk he
    · have hother : Memory.read (Memory.writeAll (markedMem s s.byteCount marks)
          ((List.range s.byteCount).map pa) (s.stringBytes rs s.byteCount)) a =
          Memory.read (markedMem s s.byteCount marks) a := by
        refine Memory.read_writeAll_of_ne _ _ _ fun p hp => ?_
        obtain ⟨k, hk, rfl⟩ := List.mem_map.mp hp
        exact ha k (List.mem_range.mp hk)
      exact ⟨hother, fun hu => hother.trans
        ((marksOnly_of_mem (t := { s with mem := markedMem s s.byteCount marks }) rfl).2 a hu)⟩

/-! ## The registers of a loaded string -/

/-- The word that bytes 4k to 4k + 3 of a string make, the bytes past its end 0 (R391). -/
def stringWord (bs : List Byte) (k : Nat) : Word :=
  bytesWord (bs.getD (4 * k) 0) (bs.getD (4 * k + 1) 0) (bs.getD (4 * k + 2) 0)
    (bs.getD (4 * k + 3) 0)

theorem stringWord_cons_succ (b0 b1 b2 b3 : Byte) (bs : List Byte) (k : Nat) :
    stringWord (b0 :: b1 :: b2 :: b3 :: bs) (k + 1) = stringWord bs k := rfl

theorem wordByte_bytesWord (b : Nat → Byte) {i : Nat} (hi : i < 4) :
    wordByte (bytesWord (b 0) (b 1) (b 2) (b 3)) i = b i := by
  have h0 := (b 0).isLt
  have h1 := (b 1).isLt
  have h2 := (b 2).isLt
  have h3 := (b 3).isLt
  apply BitVec.eq_of_toNat_eq
  rw [wordByte, extractLsb'_toNat, bytesWord_toNat]
  interval_cases i <;> omega

/-- Byte `j` of the string in the word that holds it. -/
theorem wordByte_stringWord (bs : List Byte) (j : Nat) :
    wordByte (stringWord bs (j / 4)) (j % 4) = bs.getD j 0 := by
  have h := wordByte_bytesWord (fun i => bs.getD (4 * (j / 4) + i) 0) (Nat.mod_lt j (by decide))
  rwa [Nat.div_add_mod] at h

/-- Register numbers less than 32 apart are different. -/
theorem regNum_add_ne {r : RegNum} {i j : Nat} (hi : i < 32) (hj : j < 32) (h : i ≠ j) :
    r + BitVec.ofNat 5 i ≠ r + BitVec.ofNat 5 j := by
  intro he
  have := congrArg BitVec.toNat (add_left_cancel he)
  simp at this
  omega

theorem regNum_add_succ (r : RegNum) (k : Nat) :
    r + BitVec.ofNat 5 (k + 1) = r + 1#5 + BitVec.ofNat 5 k := by
  rw [BitVec.ofNat_add, add_assoc, add_comm (BitVec.ofNat 5 k)]

/-- `t` has the string in the low-order words of its registers from `r` on, the high-order words 0
(R391), and every other register as `s` has it. -/
structure HoldsString (s t : State) (r : RegNum) (bs : List Byte) : Prop where
  loaded : ∀ k, k < stringRegCount bs.length →
    t.getGpr (r + BitVec.ofNat 5 k) = zext (stringWord bs k)
  kept : ∀ q, (∀ k, k < stringRegCount bs.length → q ≠ r + BitVec.ofNat 5 k) →
    t.getGpr q = s.getGpr q

/-- A string of one register. -/
theorem holdsString_of_one {s t : State} {r : RegNum} {bs : List Byte}
    (h : stringRegCount bs.length = 1) (ht : t = s.setGpr r (zext (stringWord bs 0))) :
    HoldsString s t r bs where
  loaded k hk := by
    obtain rfl : k = 0 := by omega
    rw [ht, BitVec.add_zero, State.getGpr_setGpr_same, State.x_zext]
  kept q hq := by
    have hqr := hq 0 (by omega)
    rw [BitVec.add_zero] at hqr
    rw [ht, State.getGpr_setGpr_of_ne s _ hqr]

/-- Four bytes in register `r` before a string that starts in the next one and does not reach `r`
again. -/
theorem holdsString_cons {s t : State} {r : RegNum} {b0 b1 b2 b3 : Byte} {rest : List Byte}
    (hlen : rest.length ≤ 124)
    (h : HoldsString (s.setGpr r (zext (bytesWord b0 b1 b2 b3))) t (r + 1#5) rest) :
    HoldsString s t r (b0 :: b1 :: b2 :: b3 :: rest) := by
  have hcount : stringRegCount (b0 :: b1 :: b2 :: b3 :: rest).length =
      stringRegCount rest.length + 1 := by
    simp only [stringRegCount, List.length_cons]
    omega
  have hle : stringRegCount rest.length < 32 := by
    simp only [stringRegCount]
    omega
  have hr : r + BitVec.ofNat 5 0 = r := BitVec.add_zero r
  have hne : ∀ j, j < stringRegCount rest.length → r ≠ r + 1#5 + BitVec.ofNat 5 j := fun j hj => by
    have h0 := regNum_add_ne (r := r) (i := 0) (j := j + 1) (by omega) (by omega) (by omega)
    rwa [hr, regNum_add_succ] at h0
  constructor
  · intro k hk
    rw [hcount] at hk
    cases k with
    | zero =>
      rw [hr, h.kept r hne, State.getGpr_setGpr_same, State.x_zext]
      rfl
    | succ k =>
      rw [regNum_add_succ, stringWord_cons_succ]
      exact h.loaded k (by omega)
  · intro q hq
    rw [hcount] at hq
    have hqr : q ≠ r := hr ▸ hq 0 (by omega)
    rw [h.kept q fun j hj => regNum_add_succ r j ▸ hq (j + 1) (by omega),
      State.getGpr_setGpr_of_ne s _ hqr]

/-- A loaded string of at most 128 bytes, for which the registers suffice, is in its registers. -/
theorem State.loadString_holds : ∀ (bs : List Byte) (s : State) (r : RegNum), bs.length ≤ 128 →
    HoldsString s (s.loadString r bs) r bs
  | [], _, _, _ => ⟨nofun, fun _ _ => rfl⟩
  | [_], s, r, _ => holdsString_of_one (by simp [stringRegCount])
      (by simp [State.loadString, stringWord])
  | [_, _], s, r, _ => holdsString_of_one (by simp [stringRegCount])
      (by simp [State.loadString, stringWord])
  | [_, _, _], s, r, _ => holdsString_of_one (by simp [stringRegCount])
      (by simp [State.loadString, stringWord])
  | _ :: _ :: _ :: _ :: rest, s, r, hlen => by
    simp only [List.length_cons] at hlen
    exact holdsString_cons (by omega)
      (State.loadString_holds rest (s.setGpr r _) (r + 1#5) (by omega))

/-- A byte of a list read from memory. -/
theorem Memory.getD_readAll (m : List Host.Cell) (pa : Nat → DWord) (n k : Nat) :
    (Memory.readAll m ((List.range n).map pa)).getD k 0 =
      if k < n then Memory.read m (pa k).toNat else 0 := by
  by_cases hk : k < n <;> simp [Memory.readAll, hk]

/-- Settles O41: no byte loads only rD; else the access is ready, and its bytes fill the registers as
`HoldsString` says. -/
theorem lswxLoads : Obligations.LswxLoads := by
  rintro rd ra rb _ n pa marks s hn rfl hda hdb hregs
  obtain rfl : n = s.byteCount := hn.trans s.byteCount_eq.symm
  have hvalid := lswxInvalid_eq_false hda hdb hregs
  refine ⟨fun h0 => ?_, fun h0 hle hbp htr hpres => ?_⟩
  · rw [exec_lswx_zero hvalid h0]
    exact ⟨_, rfl, fun q hq => State.getGpr_setGpr_of_ne s _ hq, fun _ => rfl, rfl⟩
  · obtain ⟨v0, v1, hsrr, hrun⟩ := s.onAccess_ready s.byteCount marks
    rw [exec_lswx hvalid h0, State.eaIndexed_eq,
      State.accessBytes_of_phys hle (State.dabrMatch_of_noBreakpoint hbp) htr hpres, hrun]
    generalize hbs : Memory.readAll _ ((List.range s.byteCount).map pa) = bs
    have hlen : bs.length = s.byteCount := by simp [← hbs, Memory.readAll]
    obtain ⟨hloaded, hkept⟩ := State.loadString_holds bs
      { s with mem := markedMem s s.byteCount marks, srr0 := v0, srr1 := v1 } rd
      (by have := s.byteCount_lt; omega)
    rw [hlen] at hloaded hkept
    rw [State.loadString_eq]
    refine ⟨_, rfl, fun k hk => ?_, fun k hk => ?_, fun q hq => hkept q hq, marksOnly_of_mem rfl,
      hsrr, rfl⟩
    · refine (congrArg (wordByte · (k % 4)) (congrArg lo32 (hloaded (k / 4) ?_))).trans ?_
      · simp only [stringRegCount]
        omega
      · rw [lo32_zext, wordByte_stringWord, ← hbs]
        exact Memory.getD_readAll _ pa _ k
    · exact (congrArg hi32 (hloaded k hk)).trans (hi32_zext _)

end Sys2Proof.Machine

/-! The decoder and the encoder are inverse (spec 30_encoding.md R210 to R223). A layout of R211 with
its operands makes a word exactly if the opcodes, the reserved bits and the fields of the word are as
the decoder asks: one equivalence per layout, read one way by the encoder and the other way by the
decoder. -/

namespace Sys2Proof

/-! ## Fields of a word as numbers -/

theorem fld_toNat (w lo len : Nat) : (fld w lo len).toNat = bits w lo len :=
  BitVec.toNat_ofNat _ _

theorem fld_eq_iff {w lo len : Nat} {x : BitVec len} : fld w lo len = x ↔ bits w lo len = x.toNat := by
  rw [← BitVec.toNat_inj, fld_toNat]

theorem flag_eq_iff {w lo : Nat} {b : Bool} : flag w lo = b ↔ bits w lo 1 = b.toNat := by
  have : bits w lo 1 < 2 := Nat.mod_lt _ (by decide)
  cases b
  · simp [flag]; omega
  · simp [flag]

/-- The number whose halves, swapped, are bits [20:11] (R214). -/
theorem sprOf_eq_iff {w : Nat} {n : BitVec 10} : sprOf w = n ↔ bits w 11 10 = sprField n := by
  -- Both sides say that the halves of the number are those of bits [20:11], swapped.
  have hlo : bits w 11 5 = bits w 11 10 % 2 ^ 5 := by simp only [bits]; omega
  have hhi : bits w 16 5 = bits w 11 10 / 2 ^ 5 := by simp only [bits]; omega
  have hlt : bits w 11 10 < 2 ^ 10 := Nat.mod_lt _ (by decide)
  have hn0 : bits n.toNat 0 5 = n.toNat % 2 ^ 5 := by simp [bits]
  have hn5 : bits n.toNat 5 5 = n.toNat / 2 ^ 5 := by simp only [bits]; omega
  rw [← BitVec.toNat_inj, sprOf, BitVec.toNat_ofNat, hlo, hhi, sprField, hn0, hn5,
    Nat.mod_eq_of_lt (by omega)]
  omega

/-! ## The layouts of R211 -/

section Layouts

variable {w op xo : Nat} {a b c : BitVec 5} {f g : FieldNum} {l k oe r : Bool}

/-- D: two registers and an immediate. -/
theorem dForm_eq_iff {imm : BitVec 16} (hw : w < 2 ^ 32) (hop : op < 64 := by decide) :
    dForm op a.toNat b.toNat imm.toNat = w ↔
      bits w 26 6 = op ∧ fld w 21 5 = a ∧ fld w 16 5 = b ∧ fld w 0 16 = imm := by
  simp only [fld_eq_iff, dForm, bits]
  omega

/-- D with a CR field: a compare with an immediate. -/
theorem dForm_cr_eq_iff {imm : BitVec 16} (hw : w < 2 ^ 32) (hop : op < 64 := by decide) :
    dForm op (f.toNat * 4 + l.toNat) b.toNat imm.toNat = w ↔
      bits w 26 6 = op ∧ bits w 22 1 = 0 ∧
        fld w 23 3 = f ∧ flag w 21 = l ∧ fld w 16 5 = b ∧ fld w 0 16 = imm := by
  have := l.toNat_lt
  simp only [fld_eq_iff, flag_eq_iff, dForm, bits]
  omega

/-- B: a conditional branch. -/
theorem dForm_branch_eq_iff {bd : BitVec 14} (hw : w < 2 ^ 32) (hop : op < 64 := by decide) :
    dForm op a.toNat b.toNat (bd.toNat * 4 + k.toNat * 2 + l.toNat) = w ↔
      bits w 26 6 = op ∧ fld w 21 5 = a ∧ fld w 16 5 = b ∧ fld w 2 14 = bd ∧
        flag w 1 = k ∧ flag w 0 = l := by
  have := k.toNat_lt
  have := l.toNat_lt
  simp only [fld_eq_iff, flag_eq_iff, dForm, bits]
  omega

/-- I: a branch. -/
theorem iForm_eq_iff {li : BitVec 24} (hw : w < 2 ^ 32) :
    18 * 2 ^ 26 + li.toNat * 4 + k.toNat * 2 + l.toNat = w ↔
      bits w 26 6 = 18 ∧ fld w 2 24 = li ∧ flag w 1 = k ∧ flag w 0 = l := by
  have := k.toNat_lt
  have := l.toNat_lt
  simp only [fld_eq_iff, flag_eq_iff, bits]
  omega

/-- SC: the one word of the system call. -/
theorem scForm_eq_iff (hw : w < 2 ^ 32) :
    17 * 2 ^ 26 + 2 = w ↔ bits w 26 6 = 17 ∧ bits w 0 26 = 2 := by
  simp only [bits]
  omega

/-- X and XL with three registers or CR bits. -/
theorem xForm_abc_eq_iff (hw : w < 2 ^ 32) (hop : op < 64 := by decide)
    (hxo : xo < 1024 := by decide) :
    xForm op xo a.toNat b.toNat c.toNat 0 = w ↔
      bits w 26 6 = op ∧ bits w 1 10 = xo ∧ bits w 0 1 = 0 ∧
        fld w 21 5 = a ∧ fld w 16 5 = b ∧ fld w 11 5 = c := by
  simp only [fld_eq_iff, xForm, bits]
  omega

/-- X with three registers and Rc. -/
theorem xForm_abcRc_eq_iff (hw : w < 2 ^ 32) (hop : op < 64 := by decide)
    (hxo : xo < 1024 := by decide) :
    xForm op xo a.toNat b.toNat c.toNat r.toNat = w ↔
      bits w 26 6 = op ∧ bits w 1 10 = xo ∧
        fld w 21 5 = a ∧ fld w 16 5 = b ∧ fld w 11 5 = c ∧ flag w 0 = r := by
  have := r.toNat_lt
  simp only [fld_eq_iff, flag_eq_iff, xForm, bits]
  omega

/-- XL with BO, BI and LK. -/
theorem xForm_abLk_eq_iff (hw : w < 2 ^ 32) (hop : op < 64 := by decide)
    (hxo : xo < 1024 := by decide) :
    xForm op xo a.toNat b.toNat 0 l.toNat = w ↔
      bits w 26 6 = op ∧ bits w 1 10 = xo ∧ bits w 11 5 = 0 ∧
        fld w 21 5 = a ∧ fld w 16 5 = b ∧ flag w 0 = l := by
  have := l.toNat_lt
  simp only [fld_eq_iff, flag_eq_iff, xForm, bits]
  omega

/-- X and XL without an operand. -/
theorem xForm_none_eq_iff (hw : w < 2 ^ 32) (hop : op < 64 := by decide)
    (hxo : xo < 1024 := by decide) :
    xForm op xo 0 0 0 0 = w ↔
      bits w 26 6 = op ∧ bits w 1 10 = xo ∧ bits w 0 1 = 0 ∧ bits w 11 15 = 0 := by
  simp only [xForm, bits]
  omega

/-- X with rD or rS alone. -/
theorem xForm_a_eq_iff (hw : w < 2 ^ 32) (hop : op < 64 := by decide)
    (hxo : xo < 1024 := by decide) :
    xForm op xo a.toNat 0 0 0 = w ↔
      bits w 26 6 = op ∧ bits w 1 10 = xo ∧ (bits w 0 1 = 0 ∧ bits w 11 10 = 0) ∧
        fld w 21 5 = a := by
  simp only [fld_eq_iff, xForm, bits]
  omega

/-- X with one place and Rc: the moves of one FPSCR bit, and from FPSCR. -/
theorem xForm_aRc_eq_iff (hw : w < 2 ^ 32) (hop : op < 64 := by decide)
    (hxo : xo < 1024 := by decide) :
    xForm op xo a.toNat 0 0 r.toNat = w ↔
      bits w 26 6 = op ∧ bits w 1 10 = xo ∧ bits w 11 10 = 0 ∧
        fld w 21 5 = a ∧ flag w 0 = r := by
  have := r.toNat_lt
  simp only [fld_eq_iff, flag_eq_iff, xForm, bits]
  omega

/-- X with a register and rB. -/
theorem xForm_ac_eq_iff (hw : w < 2 ^ 32) (hop : op < 64 := by decide)
    (hxo : xo < 1024 := by decide) :
    xForm op xo a.toNat 0 c.toNat 0 = w ↔
      bits w 26 6 = op ∧ bits w 1 10 = xo ∧ (bits w 0 1 = 0 ∧ bits w 16 5 = 0) ∧
        fld w 21 5 = a ∧ fld w 11 5 = c := by
  simp only [fld_eq_iff, xForm, bits]
  omega

/-- X with rB alone. -/
theorem xForm_c_eq_iff (hw : w < 2 ^ 32) (hop : op < 64 := by decide)
    (hxo : xo < 1024 := by decide) :
    xForm op xo 0 0 c.toNat 0 = w ↔
      bits w 26 6 = op ∧ bits w 1 10 = xo ∧ (bits w 0 1 = 0 ∧ bits w 16 10 = 0) ∧
        fld w 11 5 = c := by
  simp only [fld_eq_iff, xForm, bits]
  omega

/-- X with a segment register. -/
theorem xForm_sr_eq_iff {sr : BitVec 4} (hw : w < 2 ^ 32) (hop : op < 64 := by decide)
    (hxo : xo < 1024 := by decide) :
    xForm op xo a.toNat sr.toNat 0 0 = w ↔
      bits w 26 6 = op ∧ bits w 1 10 = xo ∧
        (bits w 0 1 = 0 ∧ bits w 11 5 = 0 ∧ bits w 20 1 = 0) ∧
        fld w 21 5 = a ∧ fld w 16 4 = sr := by
  simp only [fld_eq_iff, xForm, bits]
  omega

/-- X with a CR field and two registers: a compare. -/
theorem xForm_cr_eq_iff (hw : w < 2 ^ 32) (hop : op < 64 := by decide)
    (hxo : xo < 1024 := by decide) :
    xForm op xo (f.toNat * 4 + l.toNat) b.toNat c.toNat 0 = w ↔
      bits w 26 6 = op ∧ bits w 1 10 = xo ∧ (bits w 0 1 = 0 ∧ bits w 22 1 = 0) ∧
        fld w 23 3 = f ∧ flag w 21 = l ∧ fld w 16 5 = b ∧ fld w 11 5 = c := by
  have := l.toNat_lt
  simp only [fld_eq_iff, flag_eq_iff, xForm, bits]
  omega

/-- X and XL with two fields of CR or FPSCR. -/
theorem xForm_crCr_eq_iff (hw : w < 2 ^ 32) (hop : op < 64 := by decide)
    (hxo : xo < 1024 := by decide) :
    xForm op xo (f.toNat * 4) (g.toNat * 4) 0 0 = w ↔
      bits w 26 6 = op ∧ bits w 1 10 = xo ∧
        (bits w 0 1 = 0 ∧ bits w 11 7 = 0 ∧ bits w 21 2 = 0) ∧
        fld w 23 3 = f ∧ fld w 18 3 = g := by
  simp only [fld_eq_iff, xForm, bits]
  omega

/-- X with a CR field alone. -/
theorem xForm_crOnly_eq_iff (hw : w < 2 ^ 32) (hop : op < 64 := by decide)
    (hxo : xo < 1024 := by decide) :
    xForm op xo (f.toNat * 4) 0 0 0 = w ↔
      bits w 26 6 = op ∧ bits w 1 10 = xo ∧ (bits w 0 1 = 0 ∧ bits w 11 12 = 0) ∧
        fld w 23 3 = f := by
  simp only [fld_eq_iff, xForm, bits]
  omega

/-- X with an FPSCR field and its immediate. -/
theorem xForm_crImm_eq_iff {imm : BitVec 4} (hw : w < 2 ^ 32) (hop : op < 64 := by decide)
    (hxo : xo < 1024 := by decide) :
    xForm op xo (f.toNat * 4) 0 (imm.toNat * 2) r.toNat = w ↔
      bits w 26 6 = op ∧ bits w 1 10 = xo ∧ (bits w 11 1 = 0 ∧ bits w 16 7 = 0) ∧
        fld w 23 3 = f ∧ fld w 12 4 = imm ∧ flag w 0 = r := by
  have := r.toNat_lt
  simp only [fld_eq_iff, flag_eq_iff, xForm, bits]
  omega

/-- XO: OE is the high-order bit of the extended opcode as the decoder reads it. -/
theorem xoForm_eq_iff (hw : w < 2 ^ 32) (hxo : xo < 512 := by decide) :
    xoForm xo a.toNat b.toNat c.toNat oe.toNat r.toNat = w ↔
      bits w 26 6 = 31 ∧ (bits w 1 10 = xo ∨ bits w 1 10 = xo + 512) ∧
        fld w 21 5 = a ∧ fld w 16 5 = b ∧ fld w 11 5 = c ∧ flag w 10 = oe ∧ flag w 0 = r := by
  have := oe.toNat_lt
  have := r.toNat_lt
  simp only [fld_eq_iff, flag_eq_iff, xoForm, bits]
  omega

/-- XFX with an SPR or TBR number (R214). -/
theorem xfxForm_spr_eq_iff {n : BitVec 10} (hw : w < 2 ^ 32) (hxo : xo < 1024 := by decide) :
    xfxForm xo a.toNat (sprField n * 2) = w ↔
      bits w 26 6 = 31 ∧ bits w 1 10 = xo ∧ bits w 0 1 = 0 ∧ fld w 21 5 = a ∧ sprOf w = n := by
  have := Laws.sprField_lt n
  simp only [fld_eq_iff, sprOf_eq_iff, xfxForm, bits]
  omega

/-- XFX with a field mask. -/
theorem xfxForm_mask_eq_iff {crm : BitVec 8} (hw : w < 2 ^ 32) (hxo : xo < 1024 := by decide) :
    xfxForm xo a.toNat (crm.toNat * 4) = w ↔
      bits w 26 6 = 31 ∧ bits w 1 10 = xo ∧
        (bits w 0 1 = 0 ∧ bits w 11 1 = 0 ∧ bits w 20 1 = 0) ∧
        fld w 21 5 = a ∧ fld w 12 8 = crm := by
  simp only [fld_eq_iff, xfxForm, bits]
  omega

/-- XFL: a field mask and a floating-point register. -/
theorem xflForm_eq_iff {fm : BitVec 8} (hw : w < 2 ^ 32) :
    63 * 2 ^ 26 + fm.toNat * 2 ^ 17 + b.toNat * 2 ^ 11 + 711 * 2 + r.toNat = w ↔
      bits w 26 6 = 63 ∧ bits w 1 10 = 711 ∧ (bits w 16 1 = 0 ∧ bits w 25 1 = 0) ∧
        fld w 17 8 = fm ∧ fld w 11 5 = b ∧ flag w 0 = r := by
  have := r.toNat_lt
  simp only [fld_eq_iff, flag_eq_iff, bits]
  omega

end Layouts

/-! ## From the encoding to the decoder -/

theorem decodeNat_of_19 {w : Nat} (h : bits w 26 6 = 19) : decodeNat w = decode19 w := by
  simp only [decodeNat, h]

theorem decodeNat_of_31 {w : Nat} (h : bits w 26 6 = 31) : decodeNat w = decode31 w := by
  simp only [decodeNat, h]

theorem decodeNat_of_63 {w : Nat} (h : bits w 26 6 = 63) : decodeNat w = decode63 w := by
  simp only [decodeNat, h]

/-- The word of an instruction decodes to it: its layout's fields lead the decoder to its row. -/
theorem decodeNat_of_encodeNat {w : Nat} {i : Instr} (hw : w < 2 ^ 32) (h : encodeNat i = w) :
    decodeNat w = .ok i := by
  cases i <;> simp only [encodeNat] at h
  case twi a b imm | addicDot a b imm | addi a b imm | andiDot a b imm | andisDot a b imm
      | lwz a b imm =>
    obtain ⟨hop, ha, hb, himm⟩ := (dForm_eq_iff hw).1 h
    simp [decodeNat, hop, ha, hb, himm]
  case cmpli f l b imm | cmpi f l b imm =>
    obtain ⟨hop, hres, hf, hl, hb, himm⟩ := (dForm_cr_eq_iff hw).1 h
    simp [decodeNat, hop, hres, hf, hl, hb, himm]
  case bc a b bd aa lk =>
    obtain ⟨hop, ha, hb, hbd, haa, hlk⟩ := (dForm_branch_eq_iff hw).1 h
    simp [decodeNat, hop, ha, hb, hbd, haa, hlk]
  case b li aa lk =>
    obtain ⟨hop, hli, haa, hlk⟩ := (iForm_eq_iff hw).1 h
    simp [decodeNat, hop, hli, haa, hlk]
  case sc =>
    obtain ⟨hop, hres⟩ := (scForm_eq_iff hw).1 h
    simp [decodeNat, hop, hres]
  case mcrf f g =>
    obtain ⟨hop, hxo, hres, hf, hg⟩ := (xForm_crCr_eq_iff hw).1 h
    simp [decodeNat_of_19 hop, decode19, hxo, hres, hf, hg]
  case bclr a b lk | bcctr a b lk =>
    obtain ⟨hop, hxo, hres, ha, hb, hlk⟩ := (xForm_abLk_eq_iff hw).1 h
    simp [decodeNat_of_19 hop, decode19, hxo, hres, ha, hb, hlk]
  case rfid | rfi =>
    obtain ⟨hop, hxo, hres⟩ := (xForm_none_eq_iff hw).1 h
    simp [decodeNat_of_19 hop, decode19, hxo, hres]
  case crnor a b c | crandc a b c | crxor a b c | crnand a b c | crand a b c | creqv a b c
      | crorc a b c | cror a b c =>
    obtain ⟨hop, hxo, hres, ha, hb, hc⟩ := (xForm_abc_eq_iff hw).1 h
    simp [decodeNat_of_19 hop, decode19, hxo, hres, ha, hb, hc]
  case cmp f l b c | cmpl f l b c =>
    obtain ⟨hop, hxo, hres, hf, hl, hb, hc⟩ := (xForm_cr_eq_iff hw).1 h
    simp [decodeNat_of_31 hop, decode31, hxo, hres, hf, hl, hb, hc]
  case tw a b c | eciwx a b c | ecowx a b c | lswx a b c | stswx a b c =>
    obtain ⟨hop, hxo, hres, ha, hb, hc⟩ := (xForm_abc_eq_iff hw).1 h
    simp [decodeNat_of_31 hop, decode31, hxo, hres, ha, hb, hc]
  case mulhwu a b c rc | mulhw a b c rc =>
    obtain ⟨hop, hxo, ha, hb, hc, hrc⟩ := (xForm_abcRc_eq_iff hw).1 h
    simp [decodeNat_of_31 hop, decode31, hxo, ha, hb, hc, hrc]
  case subfc a b c oe rc | mulld a b c oe rc | mullw a b c oe rc | divdu a b c oe rc
      | divwu a b c oe rc | divd a b c oe rc | divw a b c oe rc =>
    obtain ⟨hop, hxo | hxo, ha, hb, hc, hoe, hrc⟩ := (xoForm_eq_iff hw).1 h
    · simp [decodeNat_of_31 hop, decode31, hxo, ha, hb, hc, hoe, hrc]
    · simp [decodeNat_of_31 hop, decode31, hxo, ha, hb, hc, hoe, hrc]
  case mfcr a | mfmsr a | mtmsr a | mtmsrd a =>
    obtain ⟨hop, hxo, hres, ha⟩ := (xForm_a_eq_iff hw).1 h
    simp [decodeNat_of_31 hop, decode31, hxo, hres, ha]
  case mtcrf a crm =>
    obtain ⟨hop, hxo, hres, ha, hcrm⟩ := (xfxForm_mask_eq_iff hw).1 h
    simp [decodeNat_of_31 hop, decode31, hxo, hres, ha, hcrm]
  case mtsr a sr | mfsr a sr =>
    obtain ⟨hop, hxo, hres, ha, hsr⟩ := (xForm_sr_eq_iff hw).1 h
    simp [decodeNat_of_31 hop, decode31, hxo, hres, ha, hsr]
  case mtsrin a c | mfsrin a c =>
    obtain ⟨hop, hxo, hres, ha, hc⟩ := (xForm_ac_eq_iff hw).1 h
    simp [decodeNat_of_31 hop, decode31, hxo, hres, ha, hc]
  case tlbie c | slbie c =>
    obtain ⟨hop, hxo, hres, hc⟩ := (xForm_c_eq_iff hw).1 h
    simp [decodeNat_of_31 hop, decode31, hxo, hres, hc]
  case mfspr a n | mftb a n | mtspr a n =>
    obtain ⟨hop, hxo, hres, ha, hn⟩ := (xfxForm_spr_eq_iff hw).1 h
    simp [decodeNat_of_31 hop, decode31, hxo, hres, ha, hn]
  case tlbia | slbia | sync =>
    obtain ⟨hop, hxo, hres⟩ := (xForm_none_eq_iff hw).1 h
    simp [decodeNat_of_31 hop, decode31, hxo, hres]
  case mcrxr f =>
    obtain ⟨hop, hxo, hres, hf⟩ := (xForm_crOnly_eq_iff hw).1 h
    simp [decodeNat_of_31 hop, decode31, hxo, hres, hf]
  case mtfsb1 a rc | mtfsb0 a rc | mffs a rc =>
    obtain ⟨hop, hxo, hres, ha, hrc⟩ := (xForm_aRc_eq_iff hw).1 h
    simp [decodeNat_of_63 hop, decode63, hxo, hres, ha, hrc]
  case mcrfs f g =>
    obtain ⟨hop, hxo, hres, hf, hg⟩ := (xForm_crCr_eq_iff hw).1 h
    simp [decodeNat_of_63 hop, decode63, hxo, hres, hf, hg]
  case mtfsfi f imm rc =>
    obtain ⟨hop, hxo, hres, hf, himm, hrc⟩ := (xForm_crImm_eq_iff hw).1 h
    simp [decodeNat_of_63 hop, decode63, hxo, hres, hf, himm, hrc]
  case mtfsf fm b rc =>
    obtain ⟨hop, hxo, hres, hfm, hb, hrc⟩ := (xflForm_eq_iff hw).1 h
    simp [decodeNat_of_63 hop, decode63, hxo, hres, hfm, hb, hrc]

/-- Settles O1: the word of an instruction is the number `encodeNat`, which fits 32 bits. -/
theorem decodeEncode : Obligations.DecodeEncode := by
  intro i
  have hi := Laws.encodeNat_lt i
  refine decodeNat_of_encodeNat (BitVec.isLt _) ?_
  rw [encode, BitVec.toNat_ofNat, Nat.mod_eq_of_lt hi]

/-! ## From the decoder to the encoding -/

/-- A row with reserved bits accepts the words in which they are as it asks. -/
theorem guarded_eq_ok_iff {p : Prop} [Decidable p] {i j : Instr} {e : DecodeError} :
    (if p then .ok j else .error e : Except DecodeError Instr) = .ok i ↔ p ∧ j = i := by
  by_cases hp : p <;> simp [hp]

section Rows

variable {w : Nat} {i : Instr}

/-- The rows of primary opcode 19. -/
theorem encodeNat_of_decode19 (hw : w < 2 ^ 32) (hop : bits w 26 6 = 19)
    (h : decode19 w = .ok i) : encodeNat i = w := by
  unfold decode19 at h
  split at h <;> simp only [guarded_eq_ok_iff, reduceCtorEq] at h <;> obtain ⟨hres, rfl⟩ := h <;>
    simp only [encodeNat]
  -- `mcrf`
  case h_1 hxo => exact (xForm_crCr_eq_iff hw).2 ⟨hop, hxo, hres, rfl, rfl⟩
  -- `bclr`, `bcctr`
  case h_2 hxo | h_13 hxo => exact (xForm_abLk_eq_iff hw).2 ⟨hop, hxo, hres, rfl, rfl, rfl⟩
  -- `rfid`, `rfi`
  case h_3 hxo | h_5 hxo => exact (xForm_none_eq_iff hw).2 ⟨hop, hxo, hres⟩
  -- the logical operations on CR bits
  case h_4 hxo | h_6 hxo | h_7 hxo | h_8 hxo | h_9 hxo | h_10 hxo | h_11 hxo | h_12 hxo =>
    exact (xForm_abc_eq_iff hw).2 ⟨hop, hxo, hres, rfl, rfl, rfl⟩

/-- The rows of primary opcode 63. -/
theorem encodeNat_of_decode63 (hw : w < 2 ^ 32) (hop : bits w 26 6 = 63)
    (h : decode63 w = .ok i) : encodeNat i = w := by
  unfold decode63 at h
  split at h <;> simp only [guarded_eq_ok_iff, reduceCtorEq] at h <;> obtain ⟨hres, rfl⟩ := h <;>
    simp only [encodeNat]
  -- `mtfsb1`, `mtfsb0`, `mffs`
  case h_1 hxo | h_3 hxo | h_5 hxo =>
    exact (xForm_aRc_eq_iff hw).2 ⟨hop, hxo, hres, rfl, rfl⟩
  -- `mcrfs`
  case h_2 hxo => exact (xForm_crCr_eq_iff hw).2 ⟨hop, hxo, hres, rfl, rfl⟩
  -- `mtfsfi`
  case h_4 hxo => exact (xForm_crImm_eq_iff hw).2 ⟨hop, hxo, hres, rfl, rfl, rfl⟩
  -- `mtfsf`
  case h_6 hxo => exact (xflForm_eq_iff hw).2 ⟨hop, hxo, hres, rfl, rfl, rfl⟩

/-- The rows of primary opcode 31. Those of the XO layout and of two products have no reserved bit. -/
theorem encodeNat_of_decode31 (hw : w < 2 ^ 32) (hop : bits w 26 6 = 31)
    (h : decode31 w = .ok i) : encodeNat i = w := by
  unfold decode31 at h
  split at h <;> simp only [guarded_eq_ok_iff, Except.ok.injEq, reduceCtorEq] at h
  -- `mulhwu`, `mulhw`
  case h_5 hxo | h_8 hxo =>
    subst h
    simp only [encodeNat]
    exact (xForm_abcRc_eq_iff hw).2 ⟨hop, hxo, rfl, rfl, rfl, rfl⟩
  -- `subfc`, `mulld`, `mullw`, `divdu`, `divwu`, `divd`, `divw` with OE = 0
  case h_3 hxo | h_14 hxo | h_16 hxo | h_26 hxo | h_28 hxo | h_31 hxo | h_33 hxo =>
    subst h
    simp only [encodeNat]
    exact (xoForm_eq_iff hw).2 ⟨hop, .inl hxo, rfl, rfl, rfl, rfl, rfl⟩
  -- the same with OE = 1
  case h_4 hxo | h_15 hxo | h_17 hxo | h_27 hxo | h_29 hxo | h_32 hxo | h_34 hxo =>
    subst h
    simp only [encodeNat]
    exact (xoForm_eq_iff hw).2 ⟨hop, .inr hxo, rfl, rfl, rfl, rfl, rfl⟩
  all_goals
    obtain ⟨hres, rfl⟩ := h
    simp only [encodeNat]
  -- `cmp`, `cmpl`
  case h_1 hxo | h_7 hxo => exact (xForm_cr_eq_iff hw).2 ⟨hop, hxo, hres, rfl, rfl, rfl, rfl⟩
  -- `tw`, `eciwx`, `ecowx`, `lswx`, `stswx`
  case h_2 hxo | h_20 hxo | h_25 hxo | h_37 hxo | h_41 hxo =>
    exact (xForm_abc_eq_iff hw).2 ⟨hop, hxo, hres, rfl, rfl, rfl⟩
  -- `mfcr`, `mfmsr`, `mtmsr`, `mtmsrd`
  case h_6 hxo | h_9 hxo | h_11 hxo | h_12 hxo =>
    exact (xForm_a_eq_iff hw).2 ⟨hop, hxo, hres, rfl⟩
  -- `mtcrf`
  case h_10 hxo => exact (xfxForm_mask_eq_iff hw).2 ⟨hop, hxo, hres, rfl, rfl⟩
  -- `mtsr`, `mfsr`
  case h_13 hxo | h_38 hxo => exact (xForm_sr_eq_iff hw).2 ⟨hop, hxo, hres, rfl, rfl⟩
  -- `mtsrin`, `mfsrin`
  case h_18 hxo | h_40 hxo => exact (xForm_ac_eq_iff hw).2 ⟨hop, hxo, hres, rfl, rfl⟩
  -- `tlbie`, `slbie`
  case h_19 hxo | h_24 hxo => exact (xForm_c_eq_iff hw).2 ⟨hop, hxo, hres, rfl⟩
  -- `mfspr`, `mftb`, `mtspr`
  case h_21 hxo | h_23 hxo | h_30 hxo =>
    exact (xfxForm_spr_eq_iff hw).2 ⟨hop, hxo, hres, rfl, rfl⟩
  -- `tlbia`, `slbia`, `sync`
  case h_22 hxo | h_35 hxo | h_39 hxo => exact (xForm_none_eq_iff hw).2 ⟨hop, hxo, hres⟩
  -- `mcrxr`
  case h_36 hxo => exact (xForm_crOnly_eq_iff hw).2 ⟨hop, hxo, hres, rfl⟩

/-- A word that decodes is the word of the instruction: its fields are the operands, its reserved bits
those of the layout. -/
theorem encodeNat_of_decodeNat (hw : w < 2 ^ 32) (h : decodeNat w = .ok i) : encodeNat i = w := by
  unfold decodeNat at h
  split at h
  case h_9 hop => exact encodeNat_of_decode19 hw hop h
  case h_12 hop => exact encodeNat_of_decode31 hw hop h
  case h_14 hop => exact encodeNat_of_decode63 hw hop h
  all_goals simp only [guarded_eq_ok_iff, Except.ok.injEq, reduceCtorEq] at h
  -- `twi`, `addic.`, `addi`, `andi.`, `andis.`, `lwz`
  case h_1 hop | h_4 hop | h_5 hop | h_10 hop | h_11 hop | h_13 hop =>
    subst h
    simp only [encodeNat]
    exact (dForm_eq_iff hw).2 ⟨hop, rfl, rfl, rfl⟩
  -- `cmpli`, `cmpi`
  case h_2 hop | h_3 hop =>
    obtain ⟨hres, rfl⟩ := h
    simp only [encodeNat]
    exact (dForm_cr_eq_iff hw).2 ⟨hop, hres, rfl, rfl, rfl, rfl⟩
  -- `bc`
  case h_6 hop =>
    subst h
    simp only [encodeNat]
    exact (dForm_branch_eq_iff hw).2 ⟨hop, rfl, rfl, rfl, rfl, rfl⟩
  -- `sc`
  case h_7 hop =>
    obtain ⟨hres, rfl⟩ := h
    exact (scForm_eq_iff hw).2 ⟨hop, hres⟩
  -- `b`
  case h_8 hop =>
    subst h
    exact (iForm_eq_iff hw).2 ⟨hop, rfl, rfl, rfl⟩

end Rows

/-- Settles O2: a word that decodes is the number `encodeNat` of its instruction. -/
theorem encodeDecode : Obligations.EncodeDecode := by
  intro w i h
  rw [encode, encodeNat_of_decodeNat w.isLt h, BitVec.ofNat_toNat, BitVec.setWidth_eq]

/-- Settles O3: each word is the word of the instruction it stands for, and `decodeEncode` decodes it. -/
theorem sampleWords : Obligations.SampleWords := by
  have h := decodeEncode
  exact ⟨h (.mftb 3 268), h (.mftb 3 269), h (.mtspr 4 1), h (.mfspr 5 8), h (.mtspr 6 9),
    h (.mtspr 7 22), h (.mfmsr 3), h .sc, h .rfi, h (.bclr 20 0 false), h (.divw 3 4 5 true true),
    h (.mtfsf 0xFF 1 false), h (.b 8 false true), h (.bc 16 0 0x3FFE false false), h (.lwz 3 4 8),
    h (.cmpi 1 false 3 0xFFFB), h .sync, h (.mtsr 4 5)⟩

end Sys2Proof

/-! The instructions that an implementation or a privilege level does not run (spec 30_encoding.md
R221, 60_exceptions.md R435, R461), and `addi` (46_other_named.md R412). -/

namespace Sys2Proof.Machine

open Statements

/-! ## The program exceptions of the guards -/

/-- A program exception at the current instruction is an entry that keeps memory and every register
but those of the entry (R435, R445). -/
theorem State.takeProgram_entered (s : State) (c : ProgramCause) :
    entered s (s.takeProgram c) (.program c) s.pc c.info ∧ sameMemory s (s.takeProgram c) ∧
      s.takeProgram c = { s with
        srr0 := (s.takeProgram c).srr0, srr1 := (s.takeProgram c).srr1,
        msr := (s.takeProgram c).msr, pc := (s.takeProgram c).pc, storedSinceSync := [],
        lastExc := some (.program c) } :=
  ⟨s.take_entered _ _ _, fun _ => rfl, rfl⟩

theorem State.ifExists_of_absent {s : State} {there : Bool} (h : there = false) (k : Result) :
    s.ifExists there k = .next (s.takeProgram .illegal) := if_neg (by simp [h])

theorem State.ifSupervisor_of_user {s : State} (h : s.user = true) (k : Result) :
    s.ifSupervisor k = .next (s.takeProgram .privileged) := if_pos h

/-- The test whether it exists, then that of the privilege level, stand before everything a
supervisor-level instruction does (R435). -/
theorem exec_supervisorInstr (r q : RegNum) (n : BitVec 4) (s : State) :
    ∀ p ∈ supervisorInstrs s.cfg r q n, ∃ k, exec p.1 s = s.ifExists p.2 (s.ifSupervisor k) := by
  simp only [supervisorInstrs, List.forall_mem_cons]
  exact ⟨⟨_, rfl⟩, ⟨_, rfl⟩, ⟨_, rfl⟩, ⟨_, rfl⟩, ⟨_, rfl⟩, ⟨_, rfl⟩, ⟨_, rfl⟩, ⟨_, rfl⟩, ⟨_, rfl⟩,
    ⟨_, rfl⟩, ⟨_, rfl⟩, ⟨_, rfl⟩, ⟨_, rfl⟩, fun _ h => absurd h List.not_mem_nil⟩

/-- The doubleword arithmetic tests for 64 bits before it writes (R221). -/
theorem exec_doublewordInstr (rd ra rb : RegNum) (oe rc : Bool) (s : State) :
    ∀ i ∈ [Instr.mulld rd ra rb oe rc, .divd rd ra rb oe rc, .divdu rd ra rb oe rc],
      ∃ k, exec i s = s.ifExists s.cfg.xlen64 k := by
  simp only [List.forall_mem_cons]
  exact ⟨⟨_, rfl⟩, ⟨_, rfl⟩, ⟨_, rfl⟩, fun _ h => absurd h List.not_mem_nil⟩

/-- External control tests for EAR before the access (R221). -/
theorem exec_externalInstr (rd ra rb : RegNum) (s : State) :
    ∀ i ∈ [Instr.eciwx rd ra rb, .ecowx rd ra rb], ∃ k, exec i s = s.ifExists s.cfg.hasEar k := by
  simp only [List.forall_mem_cons]
  exact ⟨⟨_, rfl⟩, ⟨_, rfl⟩, fun _ h => absurd h List.not_mem_nil⟩

/-- Settles O38: each instruction begins with its guards, and a guard that fails enters the program
exception of `State.takeProgram_entered`. -/
theorem supervisorOnly : Obligations.SupervisorOnly := by
  refine ⟨fun r q n s p hp => ?_, fun rd ra rb oe rc s i hi => ?_⟩
  · obtain ⟨k, hk⟩ := exec_supervisorInstr r q n s p hp
    rw [hk]
    refine ⟨fun hex hu => ?_, fun habs => ?_⟩
    · rw [State.ifExists_of_there hex, State.ifSupervisor_of_user hu]
      exact ⟨_, rfl, s.takeProgram_entered .privileged⟩
    · exact ⟨_, State.ifExists_of_absent habs _, s.takeProgram_entered .illegal⟩
  · obtain ⟨there, k, hk, habs⟩ : ∃ there k, exec i s = s.ifExists there k ∧ there = false := by
      obtain ⟨habs, hi⟩ | ⟨habs, hi⟩ := hi
      · obtain ⟨k, hk⟩ := exec_doublewordInstr rd ra rb oe rc s i hi
        exact ⟨_, k, hk, habs⟩
      · obtain ⟨k, hk⟩ := exec_externalInstr rd ra rb s i hi
        exact ⟨_, k, hk, habs⟩
    exact ⟨_, hk.trans (State.ifExists_of_absent habs k), s.takeProgram_entered .illegal⟩

/-! ## Addition of an immediate -/

/-- An immediate added to a register counts as the signed number, modulo 2^XLEN (R213). -/
theorem State.x_add_simmVal_toNat (s : State) (v : DWord) (simm : BitVec 16) :
    ((s.x (v + simmVal simm)).toNat : Int) = ((v.toNat : Int) + simm.toInt) % 2 ^ xlen s := by
  have hsigned : (simmVal simm).toInt = simm.toInt := BitVec.toInt_signExtend_of_le (by decide)
  rw [BitVec.toInt_eq_toNat_cond] at hsigned
  rw [State.x, xlenOf_toNat, BitVec.toNat_add, xlen]
  split at hsigned <;> split <;> omega

/-- The base register of a D-form address or sum, 0 for rA = 0 (R412). -/
theorem State.base_toNat (s : State) (ra : RegNum) :
    ((s.base ra).toNat : Int) = if ra = 0 then 0 else ((s.getGpr ra).toNat : Int) := by
  unfold State.base
  split <;> rfl

/-- Settles O4: the word is the D format's sum, which fits 32 bits; rD is that of
`State.x_add_simmVal_toNat`. -/
theorem addiResult : Obligations.AddiResult := by
  intro rd ra simm s
  refine ⟨?_, _, rfl, ?_, s.gprsBut_setGpr_advance _ _, fun _ => rfl, rfl⟩
  · rw [encode, BitVec.toNat_ofNat, Nat.mod_eq_of_lt (Laws.encodeNat_lt _)]
    rfl
  · rw [State.getGpr_setGpr_advance, State.x_add_simmVal_toNat, State.base_toNat]

end Sys2Proof.Machine

/-! Moves to the special-purpose registers and undefined register numbers (spec 40_spr_access.md R251
to R258, 44_timebase_dec.md R346, R353). -/

namespace Sys2Proof.Machine

open Statements

/-! ## Undefined numbers -/

theorem State.undefinedSpr_of_refuse {s : State} (h : s.cfg.undefSpr = .refuse) :
    s.undefinedSpr = .refused .undefinedSpr := by
  simp only [State.undefinedSpr, h]

theorem State.undefinedSpr_of_illegal {s : State} (h : s.cfg.undefSpr = .illegal) :
    s.undefinedSpr = .next (s.takeProgram .illegal) := by
  simp only [State.undefinedSpr, h, State.illegal]

theorem State.undefinedSpr_of_privileged {s : State} (h : s.cfg.undefSpr = .privileged) :
    s.undefinedSpr = .next (s.takeProgram .privileged) := by
  simp only [State.undefinedSpr, h, State.privileged]

/-- A number `mtspr` does not write, past the privilege test (R255, R256). -/
theorem exec_mtspr_of_undefined {rs : RegNum} {n : BitVec 10} {s : State}
    (hu : s.user = false ∨ n.getLsbD 4 = false) (hn : sprWritable s.cfg n = none) :
    exec (.mtspr rs n) s = s.undefinedSpr := by
  show execMtspr rs n s = _
  rw [execMtspr, sprMove_allowed hu, hn]
  rfl

/-- A number `mfspr` does not read, past the privilege test (R255, R256). -/
theorem exec_mfspr_of_undefined {rd : RegNum} {n : BitVec 10} {s : State}
    (hu : s.user = false ∨ n.getLsbD 4 = false) (hn : sprReadable s.cfg n = none) :
    exec (.mfspr rd n) s = s.undefinedSpr := by
  show execMfspr rd n s = _
  rw [execMfspr, sprMove_allowed hu, hn]
  rfl

/-- A number of no half of the time base (R346). -/
theorem exec_mftb_of_undefined {rd : RegNum} {n : BitVec 10} {s : State} (hl : n ≠ 268)
    (hu : n ≠ 269) : exec (.mftb rd n) s = s.undefinedSpr :=
  (if_neg hl).trans (if_neg hu)

/-- Settles O30: each of the three instructions comes to `State.undefinedSpr`, whose exceptions are
those of `State.takeProgram_entered`. -/
theorem sprUndefined : Obligations.SprUndefined := by
  intro r n s i hi
  have hexec : exec i s = s.undefinedSpr := by
    obtain ⟨hu, ⟨rfl, hn⟩ | ⟨rfl, hn⟩⟩ | ⟨rfl, hl, hu⟩ := hi
    · exact exec_mtspr_of_undefined hu hn
    · exact exec_mfspr_of_undefined hu hn
    · exact exec_mftb_of_undefined hl hu
  rw [hexec]
  refine ⟨State.undefinedSpr_of_refuse, fun h => ?_, fun h => ?_⟩
  · obtain ⟨hent, hmem, _⟩ := s.takeProgram_entered .illegal
    exact ⟨_, State.undefinedSpr_of_illegal h, hent, rfl, hmem⟩
  · obtain ⟨hent, hmem, _⟩ := s.takeProgram_entered .privileged
    exact ⟨_, State.undefinedSpr_of_privileged h, hent, rfl, hmem⟩

/-! ## The register written -/

theorem zext_lo32_toNat (v : DWord) : (zext (lo32 v)).toNat = v.toNat % 2 ^ 32 := by
  rw [zext_toNat, lo32_toNat]

theorem State.x_toNat (s : State) (v : DWord) : (s.x v).toNat = v.toNat % 2 ^ xlen s :=
  xlenOf_toNat s.cfg v

/-- A register written holds the value over its own width (R251, R253). -/
theorem State.sprValue_writeSpr_same (s : State) {r : Spr} (v : DWord) (h : r ≠ .pvr) :
    ((s.writeSpr r v).sprValue r).toNat = v.toNat % 2 ^ sprWidth s r := by
  cases r with
  | xer | dsisr | dec | ear | tbl | tbu | fpecr | pir => exact zext_lo32_toNat v
  | lr | ctr | dar | sdr1 | srr0 | srr1 | dabr => exact s.x_toNat v
  | sprg i | ibatU i | ibatL i | dbatU i | dbatL i =>
    exact (congrArg BitVec.toNat (Vector.getElem_set_self i.isLt)).trans (s.x_toNat v)
  | asr => exact (Nat.mod_eq_of_lt v.isLt).symm
  | pvr => exact absurd rfl h

/-- An entry of a bank of four registers is not changed by a write of another. -/
theorem bank_set_of_ne (w : Vector DWord 4) (v : DWord) {i j : Fin 4} (h : j ≠ i) :
    (w.set i v)[j] = w[j] :=
  Vector.getElem_set_ne i.isLt j.isLt fun hij => h (Fin.ext hij.symm)

/-- The other registers are as before. -/
theorem State.sprValue_writeSpr_of_ne (s : State) {r q : Spr} (v : DWord) (h : q ≠ r) :
    (s.writeSpr r v).sprValue q = s.sprValue q := by
  cases r <;> cases q
  case sprg.sprg i j | ibatU.ibatU i j | ibatL.ibatL i j | dbatU.dbatU i j | dbatL.dbatL i j =>
    exact bank_set_of_ne _ _ fun hij => h (congrArg _ hij)
  any_goals contradiction
  all_goals rfl

/-- The request of DEC is latched by a write that sets its bit 0, and by no other (R353). -/
theorem State.writeSpr_decRequest_iff (s : State) (r : Spr) (v : DWord) :
    (s.writeSpr r v).decRequest = true ↔ s.decRequest = true ∨
      (r = .dec ∧ srcBit s.dec 0 = false ∧ srcBit (s.writeSpr r v).dec 0 = true) := by
  cases r
  case dec => simp [State.writeSpr, srcBit]
  all_goals simp [State.writeSpr]

/-- A write of a special-purpose register leaves everything else. -/
theorem State.writeSpr_frame (s : State) (r : Spr) (v : DWord) :
    (s.writeSpr r v).cfg = s.cfg ∧ (s.writeSpr r v).gpr = s.gpr ∧ (s.writeSpr r v).fpr = s.fpr ∧
      (s.writeSpr r v).cr = s.cr ∧ (s.writeSpr r v).fpscr = s.fpscr ∧
      (s.writeSpr r v).msr = s.msr ∧ (s.writeSpr r v).sr = s.sr ∧
      (s.writeSpr r v).checkstop = s.checkstop ∧ sameMemory s (s.writeSpr r v) ∧
      (s.writeSpr r v).nextPc = s.nextPc := by
  cases r <;> exact ⟨rfl, rfl, rfl, rfl, rfl, rfl, rfl, rfl, fun _ => rfl, rfl⟩

/-! ## The move -/

/-- A value with 0 for W and G passes the mask of the two. -/
theorem and_batWG_eq_zero {v : DWord} (hw : v.getLsbD 6 = false) (hg : v.getLsbD 3 = false) :
    v &&& batWG = 0 := by
  have hmask : batWG = bitIf true 6 ||| bitIf true 3 := rfl
  apply BitVec.eq_of_getLsbD_eq
  intro b _
  rw [hmask, BitVec.getLsbD_and, BitVec.getLsbD_or, bitIf_getLsbD _ (by decide),
    bitIf_getLsbD _ (by decide)]
  by_cases h6 : b = 6
  · subst h6; rw [hw]; rfl
  · by_cases h3 : b = 3
    · subst h3; rw [hg]; rfl
    · simp [h6, h3]

/-- The writes R258 does not exclude have a meaning. -/
theorem State.sprWriteStop_eq_none {s : State} {r : Spr} {v : DWord}
    (hsdr1 : r = .sdr1 → s.msrBit msrIR = false ∧ s.msrBit msrDR = false)
    (hibat : ∀ i, r = .ibatL i → v.getLsbD 6 = false ∧ v.getLsbD 3 = false) :
    s.sprWriteStop r v = none := by
  cases r
  case sdr1 =>
    obtain ⟨hir, hdr⟩ := hsdr1 rfl
    exact if_neg (by simp [State.translating, hir, hdr])
  case ibatL i =>
    obtain ⟨hw, hg⟩ := hibat i rfl
    exact if_pos (and_batWG_eq_zero hw hg)
  all_goals rfl

/-- A move to a register past the privilege test, of a value that has a meaning (R251, R255). -/
theorem exec_mtspr {rs : RegNum} {n : BitVec 10} {r : Spr} {s : State}
    (hr : sprWritable s.cfg n = some r) (hu : s.user = false ∨ n.getLsbD 4 = false)
    (hs : s.sprWriteStop r (s.getGpr rs) = none) :
    exec (.mtspr rs n) s = .next (s.writeSpr r (s.getGpr rs)).advance := by
  show execMtspr rs n s = _
  simp only [execMtspr, sprMove_allowed hu, hr, hs, Bool.false_eq_true, if_false]

/-- Settles O27: the move is `State.writeSpr`, and pc moves on. -/
theorem mtsprStores : Obligations.MtsprStores := by
  intro rs n r s hr hu hsdr1 hibat
  have hpvr : r ≠ .pvr := (sprWritable_iff.mp hr).2
  obtain ⟨hcfg, hgpr, hfpr, hcr, hfpscr, hmsr, hsr, hstop, hmem, hpc⟩ :=
    s.writeSpr_frame r (s.getGpr rs)
  exact ⟨_, exec_mtspr hr hu (State.sprWriteStop_eq_none hsdr1 hibat),
    s.sprValue_writeSpr_same _ hpvr, fun _ hq => s.sprValue_writeSpr_of_ne _ hq,
    s.writeSpr_decRequest_iff r _, hcfg, hgpr, hfpr, hcr, hfpscr, hmsr, hsr, hstop, hmem, hpc⟩

end Sys2Proof.Machine

/-! The instructions of spec 41_cr_xer.md that write CA, the ANDs with an immediate, the low
products and the doubleword quotients (R277 to R280, R285 to R291), and the moves and logic of CR
(R271 to R275). -/

namespace Sys2Proof.Machine

open Statements

/-! ## Results of XLEN bits -/

/-- What a register holds of a number: the number modulo 2^XLEN. -/
theorem State.x_ofInt_toNat (s : State) (z : Int) :
    ((s.x (BitVec.ofInt 64 z)).toNat : Int) = z % 2 ^ xlen s := by
  rw [State.x_toNat, BitVec.toNat_ofInt, xlen]
  split <;> omega

/-- On a 64-bit implementation a register holds all of a value. -/
theorem State.x_of_xlen64 {s : State} (h : s.cfg.xlen64 = true) (v : DWord) : s.x v = v :=
  if_pos h

/-- A number outside a range of consecutive numbers lies below or above it. -/
theorem below_or_above (p lo hi : Int) :
    (decide (p < lo) || decide (hi - 1 < p)) = !decide (lo ≤ p ∧ p < hi) := by
  rw [← Bool.decide_or, ← decide_not]
  exact decide_eq_decide.mpr (by omega)

/-! ## Carry and overflow (R87, R291) -/

theorem modeNat_eq_mod (s : State) (v : DWord) : modeNat s v = v.toNat % 2 ^ s.opWidth := by
  unfold modeNat State.opWidth
  split
  · exact (Nat.mod_eq_of_lt v.isLt).symm
  · exact lo32_toNat v

/-- Without a carry in, the carry out says that the sum of the mode's operands needs another bit. -/
theorem State.carryOut_zero (s : State) (a b : DWord) :
    carryOut s.opWidth a b 0 = decide (2 ^ modeWidth s ≤ modeNat s a + modeNat s b) := by
  rw [modeNat_eq_mod, modeNat_eq_mod]
  rfl

/-- The low bits of a complement. -/
theorem not_toNat_mod {w : Nat} (hw : w ≤ 64) (a : DWord) :
    (~~~a).toNat % 2 ^ w = 2 ^ w - 1 - a.toNat % 2 ^ w := by
  rw [← BitVec.toNat_setWidth, BitVec.setWidth_not hw, BitVec.toNat_not, BitVec.toNat_setWidth]

/-- The carry of `~a + b + 1` says that `b - a` needs no borrow. -/
theorem carryOut_not_one {w : Nat} (hw : w ≤ 64) (a b : DWord) :
    carryOut w (~~~a) b 1 = decide (a.toNat % 2 ^ w ≤ b.toNat % 2 ^ w) := by
  have ha : a.toNat % 2 ^ w < 2 ^ w := Nat.mod_lt _ (Nat.two_pow_pos w)
  rw [carryOut, not_toNat_mod hw]
  exact decide_eq_decide.mpr (by omega)

theorem State.opWidth_le (s : State) : s.opWidth ≤ 64 := by
  unfold State.opWidth
  split <;> decide

/-- The two carries of `~a + b + 1` differ where the signed difference does not fit. -/
theorem State.ovAdd_not_one (s : State) (a b : DWord) :
    ovAdd s.opWidth (~~~a) b 1 =
      !decide (-2 ^ (modeWidth s - 1) ≤ modeInt s b - modeInt s a ∧
        modeInt s b - modeInt s a < 2 ^ (modeWidth s - 1)) := by
  have hw := s.opWidth_le
  rw [ovAdd, carryInMsb, carryOut_not_one hw, carryOut_not_one (by omega), Bool.eq_iff_iff]
  simp only [bne_iff_ne, ne_eq, decide_eq_decide, Bool.not_eq_true', decide_eq_false_iff_not]
  have ha := a.isLt
  have hb := b.isLt
  unfold State.opWidth modeWidth modeInt
  split
  all_goals
    simp only [BitVec.toInt_eq_toNat_cond, lo32_toNat]
    split <;> split <;> omega

/-! ## An arithmetic instruction that writes CA -/

section WriteCa

variable (s : State) (c : Bool) (rd : RegNum) (r : DWord) (oe ov rc : Bool)

theorem State.setCa_xer_getLsbD (b : Nat) :
    (s.setCa c).xer.getLsbD b = if b = 29 then c else s.xer.getLsbD b :=
  putBit_getLsbD _ (by decide) _ _

theorem State.setCa_arith_ca : ((s.setCa c).arith rd r oe ov rc false).ca = c := by
  have hkept := (s.setCa c).arith_xerRestKept rd r oe ov rc false 29 (by decide) (by decide)
  rw [State.ca, hkept, State.setCa_xer_getLsbD, if_pos rfl]

/-- OV and SO do not depend on CA. -/
theorem State.setCa_arith_overflowRule :
    overflowRule s ((s.setCa c).arith rd r oe ov rc false) oe ov := by
  have hov : (s.setCa c).ov = s.ov := (s.setCa_xer_getLsbD c 30).trans (if_neg (by decide))
  have hso : (s.setCa c).so = s.so := (s.setCa_xer_getLsbD c 31).trans (if_neg (by decide))
  have h := (s.setCa c).arith_overflowRule rd r oe ov rc false
  rwa [overflowRule, hov, hso] at h

/-- The byte count and the reserved bits of XER stay (R279). -/
theorem State.setCa_arith_xer_getLsbD {b : Nat} (h29 : b ≠ 29) (h30 : b ≠ 30) (h31 : b ≠ 31) :
    ((s.setCa c).arith rd r oe ov rc false).xer.getLsbD b = s.xer.getLsbD b := by
  rw [(s.setCa c).arith_xerRestKept _ _ _ _ _ _ b h30 h31, State.setCa_xer_getLsbD, if_neg h29]

/-- The record form reads neither CA nor anything CA changes. -/
theorem State.setCa_arith_recorded :
    recorded s ((s.setCa c).arith rd r oe ov rc false) rc false
      (((s.setCa c).arith rd r oe ov rc false).getGpr rd) :=
  (s.setCa c).arith_recorded_getGpr rd r oe ov rc false

theorem State.setCa_arith_frame : arithFrame rd s ((s.setCa c).arith rd r oe ov rc false) :=
  (s.setCa c).arith_frame rd r oe ov rc false

theorem State.getGpr_setCa_arith :
    ((s.setCa c).arith rd r oe ov rc false).getGpr rd = s.x r :=
  (s.setCa c).getGpr_arith_same rd r oe ov rc false

end WriteCa

/-- Settles O5: with OE = 0 XER changes in CA alone. -/
theorem addicDotResult : Obligations.AddicDotResult := by
  intro rd ra simm s
  obtain ⟨hflags, -⟩ := s.setCa_arith_overflowRule _ rd _ false false true
  obtain ⟨hov, hso⟩ := hflags rfl
  obtain ⟨-, hcr0, -⟩ := s.setCa_arith_recorded _ rd _ false false true
  refine ⟨_, rfl, ?_, (s.setCa_arith_ca _ _ _ _ _ _).trans (s.carryOut_zero _ _), hov, hso,
    hcr0 rfl rfl, fun b hb => ?_, s.setCa_arith_frame _ _ _ _ _ _⟩
  · rw [State.getGpr_setCa_arith, State.x_add_simmVal_toNat]
  · rw [State.arith_xer, if_neg Bool.false_ne_true, State.setCa_xer_getLsbD, if_neg hb]

/-- The difference as the sum the processor forms (R289). -/
theorem not_add_one_eq_ofInt_sub (a b : DWord) :
    ~~~a + b + 1#64 = BitVec.ofInt 64 ((b.toNat : Int) - (a.toNat : Int)) := by
  have ha := a.isLt
  apply BitVec.eq_of_toNat_eq
  rw [BitVec.toNat_ofInt, BitVec.toNat_add, BitVec.toNat_add, BitVec.toNat_not, BitVec.toNat_ofNat]
  omega

/-- Settles O7: the difference is a sum with the complement, whose carries are those of
`carryOut_not_one`. -/
theorem subfcResult : Obligations.SubfcResult := by
  intro rd ra rb oe rc s
  refine ⟨_, rfl, ?_, ?_, ?_, s.setCa_arith_recorded _ _ _ _ _ _,
    fun b h29 h30 h31 => s.setCa_arith_xer_getLsbD _ _ _ _ _ _ h29 h30 h31,
    s.setCa_arith_frame _ _ _ _ _ _⟩
  · rw [State.getGpr_setCa_arith, not_add_one_eq_ofInt_sub, State.x_ofInt_toNat]
  · rw [State.setCa_arith_ca, carryOut_not_one s.opWidth_le, modeNat_eq_mod, modeNat_eq_mod]
  · rw [← State.ovAdd_not_one]
    exact s.setCa_arith_overflowRule _ _ _ _ _ _

/-! ## The AND with an immediate (R278, R280) -/

/-- A register holds all of a word with 32 zeros before it. -/
theorem State.x_of_lt {s : State} {v : DWord} (h : v.toNat < 2 ^ 32) : s.x v = v := by
  apply BitVec.eq_of_toNat_eq
  rw [State.x_toNat, xlen]
  split <;> omega

theorem uimmVal_toNat_lt (i : BitVec 16) : (uimmVal i).toNat < 2 ^ 32 := by
  have := i.isLt
  rw [uimmVal, BitVec.toNat_setWidth]
  omega

/-- The shifted immediate is the immediate before sixteen zeros. -/
theorem uimmShifted_eq_append (i : BitVec 16) : uimmShifted i = (i ++ 0#16).setWidth 64 := by
  have := i.isLt
  apply BitVec.eq_of_toNat_eq
  rw [uimmShifted, BitVec.toNat_shiftLeft, BitVec.toNat_setWidth, BitVec.toNat_setWidth,
    BitVec.toNat_append, Nat.shiftLeft_eq, Nat.shiftLeft_eq, BitVec.toNat_zero, Nat.or_zero]
  omega

theorem uimmShifted_toNat_lt (i : BitVec 16) : (uimmShifted i).toNat < 2 ^ 32 := by
  rw [uimmShifted_eq_append]
  exact zext_toNat (i ++ 0#16) ▸ (i ++ 0#16).isLt

/-- The end of an AND with a mask of 32 bits: rA and CR0. -/
theorem State.andMask_spec (s : State) (rs ra : RegNum) {m : DWord} (hm : m.toNat < 2 ^ 32) :
    (s.arith ra (s.getGpr rs &&& m) false false true false).getGpr ra = s.getGpr rs &&& m ∧
      cr0Reports s (s.arith ra (s.getGpr rs &&& m) false false true false)
        ((s.arith ra (s.getGpr rs &&& m) false false true false).getGpr ra) ∧
      (s.arith ra (s.getGpr rs &&& m) false false true false).xer = s.xer ∧
      arithFrame ra s (s.arith ra (s.getGpr rs &&& m) false false true false) := by
  have hlt : (s.getGpr rs &&& m).toNat < 2 ^ 32 := by
    rw [BitVec.toNat_and]
    exact Nat.lt_of_le_of_lt Nat.and_le_right hm
  obtain ⟨-, hcr0, -⟩ :=
    s.arith_recorded_getGpr ra (s.getGpr rs &&& m) false false true false
  exact ⟨(s.getGpr_arith_same _ _ _ _ _ _).trans (State.x_of_lt hlt), hcr0 rfl rfl,
    s.arith_xer _ _ _ _ _ _, s.arith_frame _ _ _ _ _ _⟩

/-- Settles O6: both immediates are masks of 32 bits. -/
theorem andImmediateResult : Obligations.AndImmediateResult := by
  intro rs ra uimm s
  refine ⟨⟨_, rfl, s.andMask_spec rs ra (uimmVal_toNat_lt uimm)⟩, ⟨_, rfl, ?_⟩⟩
  rw [← uimmShifted_eq_append]
  exact s.andMask_spec rs ra (uimmShifted_toNat_lt uimm)

/-! ## Products and doubleword quotients -/

/-- Settles O9: both products are the number's low bits, and both overflow tests its range. -/
theorem multiplyLowResult : Obligations.MultiplyLowResult := by
  refine ⟨fun rd ra rb oe rc s => ⟨_, rfl, ?_, ?_, s.arith_recorded_getGpr _ _ _ _ _ _,
    s.arith_xerRestKept _ _ _ _ _ _, s.arith_frame _ _ _ _ _ _⟩,
    fun rd ra rb oe rc s hx => ⟨_, State.ifExists_of_there hx _, ?_, ?_,
      s.arith_recorded_getGpr _ _ _ _ _ _, s.arith_xerRestKept _ _ _ _ _ _,
      s.arith_frame _ _ _ _ _ _⟩⟩
  · rw [State.getGpr_arith_same, State.x_ofInt_toNat]
  · rw [← below_or_above]
    exact s.arith_overflowRule _ _ _ _ _ _
  · rw [State.getGpr_arith_same, State.x_ofInt_toNat, xlen, if_pos hx]
  · rw [← below_or_above]
    exact s.arith_overflowRule _ _ _ _ _ _

/-- A quotient that a register of `w` bits holds (R283, R287). -/
theorem ofInt_tdiv_toInt_of_fits {w : Nat} (hw : 0 < w) {a b : BitVec w}
    (h : ¬(b.toInt = 0 ∨ (a.toInt = -2 ^ (w - 1) ∧ b.toInt = -1))) :
    (BitVec.ofInt w (a.toInt.tdiv b.toInt)).toInt = a.toInt.tdiv b.toInt := by
  have hne : a ≠ BitVec.intMin w ∨ b ≠ -1#w := by
    by_contra hc
    obtain ⟨ha, hb⟩ := not_or.mp hc
    rw [not_not.mp ha, not_not.mp hb, BitVec.toInt_intMin_of_pos hw,
      BitVec.neg_one_eq_allOnes, BitVec.toInt_allOnes, if_pos hw] at h
    exact h (.inr ⟨rfl, rfl⟩)
  rw [← BitVec.toInt_sdiv_of_ne_or_ne a b hne, BitVec.ofInt_toInt]

/-- Settles O11: a quotient that is not bad is the rational one, and rD holds all of it. -/
theorem divideDoubleResult : Obligations.DivideDoubleResult := by
  intro rd ra rb oe rc s hx
  refine ⟨⟨_, _, State.ifExists_of_there hx _, ?_, fun hbad => ?_,
    s.arith_overflowRule _ _ _ _ _ _, s.arith_recorded_getGpr _ _ _ _ _ _,
    s.arith_xerRestKept _ _ _ _ _ _, s.arith_frame _ _ _ _ _ _⟩,
    ⟨_, _, State.ifExists_of_there hx _, rfl, fun hbad => ?_,
    s.arith_overflowRule _ _ _ _ _ _, s.arith_recorded_getGpr _ _ _ _ _ _,
    s.arith_xerRestKept _ _ _ _ _ _, s.arith_frame _ _ _ _ _ _⟩⟩
  · rw [Bool.decide_or, Bool.decide_and]
  · rw [State.getGpr_arith_same, State.x_of_xlen64 hx, hbad, if_neg Bool.false_ne_true]
    refine ofInt_tdiv_toInt_of_fits (by decide) (of_decide_eq_false ?_)
    rw [Bool.decide_or, Bool.decide_and, hbad]
  · rw [State.getGpr_arith_same, State.x_of_xlen64 hx, hbad, if_neg Bool.false_ne_true,
      BitVec.toNat_ofNat]
    exact Nat.mod_eq_of_lt (Nat.lt_of_le_of_lt (Nat.div_le_self _ _) (s.getGpr ra).isLt)

/-! ## Condition register -/

/-- An instruction whose meaning is `State.crLogical` writes one bit of CR. -/
theorem crOp_of_crLogical {make : RegNum → RegNum → RegNum → Instr} {op op' : Bool → Bool → Bool}
    (hexec : ∀ d a b s, exec (make d a b) s = s.crLogical op d a b)
    (hop : ∀ x y, op x y = op' x y) : crOp make op' := by
  intro d a b s
  refine ⟨_, hexec d a b s, ?_, fun q hq => ?_, fun _ => rfl, rfl⟩
  · exact (srcBit_setSrcBit _ _ _ _).trans ((if_pos rfl).trans (hop _ _))
  · exact (srcBit_setSrcBit _ _ _ _).trans (if_neg hq)

/-- Settles O14: each of the eight is `State.crLogical` with its own operation, `creqv` with the
equality of its bits. -/
theorem crLogicalResult : Obligations.CrLogicalResult := by
  refine ⟨?_, ?_, ?_, ?_, ?_, crOp_of_crLogical (fun _ _ _ _ => rfl) (by decide), ?_, ?_⟩
  all_goals exact crOp_of_crLogical (fun _ _ _ _ => rfl) fun _ _ => rfl

/-- A merge under a mask of fields takes each selected field whole. -/
theorem field4_mergeBits_fieldsMask (m : BitVec 8) (old v : Word) (k : FieldNum) :
    field4 (mergeBits (fieldsMask m) old v) k =
      if m.getLsbD (7 - k.toNat) then field4 v k else field4 old k := by
  have hk := k.isLt
  apply BitVec.eq_of_getLsbD_eq
  intro i hi
  have hfield : (28 - 4 * k.toNat + i) / 4 = 7 - k.toNat := by omega
  rw [field4_getLsbD _ k hi, mergeBits_getLsbD, fieldsMask_getLsbD m (by omega), hfield]
  split <;> exact (field4_getLsbD _ k hi).symm

/-- Settles O15: a merge of fields, the write of a field and a zero-extended word. -/
theorem crMoves : Obligations.CrMoves := by
  refine ⟨fun rs crm s => ⟨_, rfl, field4_mergeBits_fieldsMask crm _ _, fun _ => rfl, rfl⟩,
    fun d f s => ⟨_, rfl, field4_setField4_same _ _ _, fun _ hg => field4_setField4_of_ne _ _ hg,
      fun _ => rfl, rfl⟩,
    fun rd s => ⟨_, rfl, ?_, s.gprsBut_setGpr_advance _ _, fun _ => rfl, rfl⟩⟩
  rw [State.getGpr_setGpr_advance, State.x_zext, zext_toNat]

/-- Field 0 is the four high-order bits of the low-order word (R42). -/
theorem field4_lo32_zero_getLsbD (v : DWord) {k : Nat} (hk : k < 4) :
    (field4 (lo32 v) 0).getLsbD k = v.getLsbD (28 + k) := by
  rw [field4_getLsbD _ 0 hk, lo32, BitVec.getLsbD_setWidth]
  simp
  omega

theorem zext_getLsbD (w : Word) (b : Nat) : (zext w).getLsbD b = w.getLsbD b := by
  rw [zext, BitVec.getLsbD_setWidth]
  by_cases hb : b < 32
  · simp [show b < 64 by omega]
  · simp [BitVec.getLsbD_of_ge w b (by omega)]

/-- XER with its bits 0-3 cleared (R273). -/
theorem clearedXer_getLsbD (w : Word) (b : Nat) :
    (w &&& 0x0FFFFFFF#32).getLsbD b = (w.getLsbD b && decide (b < 28)) := by
  by_cases hb : b < 32
  · rw [BitVec.getLsbD_and]
    exact congrArg (w.getLsbD b && ·) (getLsbD_lowMask (n := 28) 32 hb)
  · simp [BitVec.getLsbD_of_ge _ b (Nat.le_of_not_lt hb)]

/-- Settles O16: bits 0-2 of the field are no reserved ones, and bit 3 reads 0 where it holds 0. -/
theorem mcrxrResult : Obligations.McrxrResult := by
  intro f s
  have hbit : ∀ k < 4, ∀ v : DWord,
      (field4 (setField4 s.cr f (field4 (lo32 v) 0)) f).getLsbD k = v.getLsbD (28 + k) :=
    fun k hk v => by rw [field4_setField4_same, field4_lo32_zero_getLsbD v hk]
  have hcopied : ∀ k < 4, xerReserved.getLsbD (28 + k) = false →
      (field4 (setField4 s.cr f
        (field4 (lo32 (s.view .mcrxr xerReserved (zext s.xer))) 0)) f).getLsbD k =
      s.xer.getLsbD (28 + k) := fun k hk hdef => by
    rw [hbit k hk, State.view_getLsbD_of_defined s _ _ _ hdef, zext_getLsbD]
  refine ⟨_, rfl, hcopied 3 (by decide) rfl, hcopied 2 (by decide) rfl, hcopied 1 (by decide) rfl,
    fun h0 => (hbit 0 (by decide) _).trans ?_, fun _ hg => field4_setField4_of_ne _ _ hg,
    clearedXer_getLsbD s.xer, fun _ => rfl, rfl⟩
  exact State.view_getLsbD_of_zero s _ _ _ ((zext_getLsbD _ _).trans h0)

end Sys2Proof.Machine

/-! The FPSCR instructions that copy a field or read FPSCR (spec 42_fpscr.md R301, R306), and what the
six have in common: the guard on MSR[FP] (R300, R436), an update that MSR plays no part in, and the
enabled exception after it (R310, R437). -/

namespace Sys2Proof.Machine

open Statements

/-! ## The guard on MSR[FP] and the end of the instruction -/

theorem State.ifFp_of_available {s : State} (h : s.msrBit msrFP = true) (k : Result) :
    s.ifFp k = k := if_pos h

theorem State.ifFp_of_unavailable {s : State} (h : s.msrBit msrFP = false) (k : Result) :
    s.ifFp k = .next (s.take .fpUnavailable s.pc 0) := if_neg (by simp [h])

theorem State.fpDone_of_disabled {u : State} (h0 : u.msrBit msrFE0 = false)
    (h1 : u.msrBit msrFE1 = false) : u.fpDone = .next u.advance := by
  simp [State.fpDone, State.feEnabled, h0, h1]

theorem State.fpDone_of_enabled {u : State} (h : u.msrBit msrFE0 = true ∨ u.msrBit msrFE1 = true) :
    u.fpDone = .next (if fpscrFEX u.fpscr then u.takeProgram .fpEnabled else u.advance) := by
  have hfe : u.feEnabled = true := Bool.or_eq_true_iff.mpr h
  rw [State.fpDone, hfe, Bool.and_true]
  split <;> rfl

/-! ## What the six updates have in common -/

/-- An update of the floating-point state: it writes FPRs, CR and FPSCR at most, and MSR plays no
part in it. -/
structure FpUpdate (f : State → State) : Prop where
  frame : ∀ s, ∃ fpr cr fpscr, f s = { s with fpr := fpr, cr := cr, fpscr := fpscr }
  msr_irrelevant : ∀ s m, f { s with msr := m } = { f s with msr := m }

/-- The record form adds a write of CR1 (R307). -/
theorem FpUpdate.recordCr1 {f : State → State} (h : FpUpdate f) (rc : Bool) :
    FpUpdate fun s => (f s).recordCr1 rc := by
  cases rc with
  | false => exact h
  | true =>
    refine ⟨fun s => ?_, fun s m => ?_⟩
    · obtain ⟨fpr, cr, fpscr, hf⟩ := h.frame s
      exact ⟨fpr, _, fpscr, congrArg (State.recordCr1 · true) hf⟩
    · exact congrArg (State.recordCr1 · true) (h.msr_irrelevant s m)

/-- Each of the six tests MSR[FP], makes its update and ends as R310 says. -/
theorem exec_fpscrInstr (d c : FieldNum) (r : RegNum) (imm : BitVec 4) (fm : BitVec 8) (rc : Bool) :
    ∀ i ∈ fpscrInstrs d c r imm fm rc,
      ∃ f, (∀ s, exec i s = s.ifFp (f s).fpDone) ∧ FpUpdate f := by
  simp only [fpscrInstrs, List.forall_mem_cons]
  refine ⟨⟨_, fun _ => rfl, ?_⟩, ⟨_, fun _ => rfl, .recordCr1 ?_ rc⟩,
    ⟨_, fun _ => rfl, .recordCr1 ?_ rc⟩, ⟨_, fun _ => rfl, .recordCr1 ?_ rc⟩,
    ⟨_, fun _ => rfl, .recordCr1 ?_ rc⟩, ⟨_, fun _ => rfl, .recordCr1 ?_ rc⟩,
    fun _ h => absurd h List.not_mem_nil⟩
  all_goals exact ⟨fun _ => ⟨_, _, _, rfl⟩, fun _ _ => rfl⟩

/-- Settles O22: the guard stands before the update. -/
theorem fpUnavailable : Obligations.FpUnavailable := by
  intro d c r imm fm rc s hfp i hi
  obtain ⟨f, hexec, _⟩ := exec_fpscrInstr d c r imm fm rc i hi
  exact ⟨_, (hexec s).trans (State.ifFp_of_unavailable hfp _), s.take_entered _ _ _, fun _ => rfl, rfl⟩

/-- The state an entry starts from counts by its configuration, MSR and pc only. -/
theorem State.takeProgram_entered_after_update (s : State) (fpr : Vector DWord 32) (cr fpscr : Word)
    (c : ProgramCause) :
    entered s (State.takeProgram { s with fpr := fpr, cr := cr, fpscr := fpscr } c) (.program c) s.pc
      c.info :=
  (State.takeProgram_entered { s with fpr := fpr, cr := cr, fpscr := fpscr } c).1

/-- MSR with FE0 and FE1, the bits of 0x900, turned off keeps FP (R113). -/
theorem State.msrBit_feOff (s : State) :
    State.msrBit { s with msr := s.msr &&& ~~~0x900#64 } msrFP = s.msrBit msrFP ∧
      State.msrBit { s with msr := s.msr &&& ~~~0x900#64 } msrFE0 = false ∧
      State.msrBit { s with msr := s.msr &&& ~~~0x900#64 } msrFE1 = false := by
  simp [State.msrBit, msrFP, msrFE0, msrFE1]

/-- Settles O23: the update is the same with the modes off, and what follows it turns on its FEX. -/
theorem fpEnabledException : Obligations.FpEnabledException := by
  intro d c r imm fm rc s hfp hfe i hi
  obtain ⟨f, hexec, hf⟩ := exec_fpscrInstr d c r imm fm rc i hi
  obtain ⟨fpr, cr, fpscr, hupd⟩ := hf.frame s
  have hon : exec i s = .next (if fpscrFEX fpscr
      then State.takeProgram { s with fpr := fpr, cr := cr, fpscr := fpscr } .fpEnabled
      else State.advance { s with fpr := fpr, cr := cr, fpscr := fpscr }) := by
    rw [hexec, State.ifFp_of_available hfp, hupd]
    exact State.fpDone_of_enabled hfe
  have hoff : exec i { s with msr := s.msr &&& ~~~0x900#64 } = .next (State.advance
      { s with fpr := fpr, cr := cr, fpscr := fpscr, msr := s.msr &&& ~~~0x900#64 }) := by
    obtain ⟨hfp', h0, h1⟩ := s.msrBit_feOff
    rw [hexec, State.ifFp_of_available (hfp'.trans hfp), hf.msr_irrelevant, hupd]
    exact State.fpDone_of_disabled h0 h1
  have hsame : ∀ u, exec i { s with msr := s.msr &&& ~~~0x900#64 } = .next u →
      fpscr = u.fpscr ∧ cr = u.cr ∧ fpr = u.fpr := fun u hu => by
    cases hoff.symm.trans hu
    exact ⟨rfl, rfl, rfl⟩
  cases hfex : fpscrFEX fpscr with
  | true =>
    rw [hfex, if_pos rfl] at hon
    exact ⟨_, hon, fun _ => s.takeProgram_entered_after_update fpr cr fpscr .fpEnabled,
      fun h => absurd (hfex.symm.trans h) (by decide), hsame, rfl, rfl, fun _ => rfl⟩
  | false =>
    rw [hfex, if_neg Bool.false_ne_true] at hon
    exact ⟨_, hon, fun h => absurd (hfex.symm.trans h) (by decide), fun _ => ⟨rfl, rfl, rfl⟩, hsame,
      rfl, rfl, fun _ => rfl⟩

/-! ## Reads of FPSCR -/

/-- Bit 20 is the only reserved bit of FPSCR (R72). -/
theorem fpscrReserved_getLsbD_of_ne {b : RegNum} (h : b ≠ 20) :
    fpscrReserved.getLsbD (31 - b.toNat) = false := by
  revert b
  decide

/-- A read gives every bit of FPSCR as it is now, the reserved one (20) where it was last written as
0 (R32, R72). -/
theorem State.srcBit_fpscrView (s : State) (who : ReservedReader) {b : RegNum}
    (h : b ≠ 20 ∨ srcBit s.fpscr 20 = false) :
    srcBit (s.fpscrView who) b = srcBit s.fpscrNow b := by
  have hb : 31 - b.toNat < 32 := by omega
  rw [State.fpscrView, srcBit, lo32, BitVec.getLsbD_setWidth, decide_eq_true hb, Bool.true_and]
  by_cases h20 : b = 20
  · subst h20
    have h0 : srcBit s.fpscrNow 20 = false :=
      (srcBit_fpscrRecomputed s.fpscr 20).trans (h.resolve_left (· rfl))
    rw [h0]
    exact State.view_getLsbD_of_zero s who _ _ ((zext_getLsbD _ _).trans h0)
  · rw [State.view_getLsbD_of_defined s who _ _ (fpscrReserved_getLsbD_of_ne h20), zext_getLsbD,
      srcBit]

/-- Bit `k` of a four-bit field in source numbering. -/
theorem field4_getLsbD_eq_srcBit (w : Word) (n : FieldNum) {k : Nat} (hk : k < 4) :
    (field4 w n).getLsbD k = srcBit w (BitVec.ofNat 5 (4 * n.toNat + 3 - k)) := by
  have hn := n.isLt
  rw [field4_getLsbD w n hk, srcBit, BitVec.toNat_ofNat]
  congr 1
  omega

/-- What `mcrfs` clears: FX and the exception bits of the field it copies (R301). -/
theorem srcBit_fpscrMoved_cleared (f : Word) (n : FieldNum) (b : RegNum) :
    srcBit (fpscrMoved f (fieldMask n &&& (fpscrExc ||| fpscrFX)) 0) b =
      (srcBit f b && !(decide (b.toNat / 4 = n.toNat) && (b == 0 || isExc b))) := by
  have hfi : (isExc 14 || (14 : RegNum) == 0) = false := by decide
  have hcomp : isComputed b = true → (isExc b || b == 0) = false := by revert b; decide
  rw [srcBit_fpscrMoved]
  simp only [srcBit_and, srcBit_or, srcBit_fieldMask, srcBit_fpscrExc, srcBit_fpscrFX, srcBit_zero,
    hfi, Bool.and_false, Bool.false_eq_true, false_and, and_false, if_false, Bool.or_comm (b == 0)]
  cases hc : isComputed b with
  | true => simp only [hcomp hc, Bool.and_false, Bool.not_false, Bool.and_true, reduceCtorEq,
      and_false, if_false]
  | false => cases decide (b.toNat / 4 = n.toNat) && (isExc b || b == 0) <;> simp

/-- Bit 20 is the leftmost bit of field 5. -/
theorem fieldBit_eq_twenty_iff (n : FieldNum) {k : Nat} (hk : k < 4) :
    BitVec.ofNat 5 (4 * n.toNat + 3 - k) = 20 ↔ n = 5 ∧ k = 3 := by
  have hn := n.isLt
  rw [← BitVec.toNat_inj, ← BitVec.toNat_inj, BitVec.toNat_ofNat]
  simp
  omega

/-- Settles O18: the copied field is what a read gives, which differs from FPSCR as it is now at most
in the leftmost bit of field 5; the bits cleared are those of `srcBit_fpscrMoved_cleared`. -/
theorem mcrfsResult : Obligations.McrfsResult := by
  intro d f s hfp h0 h1
  have hcopied : ∀ k < 4, (¬(f = 5 ∧ k = 3) ∨ srcBit s.fpscr 20 = false) →
      (field4 (setField4 s.cr d (field4 (s.fpscrView .mcrfs) f)) d).getLsbD k =
        (field4 s.fpscrNow f).getLsbD k := fun k hk h => by
    rw [field4_setField4_same, field4_getLsbD_eq_srcBit _ f hk, field4_getLsbD_eq_srcBit _ f hk]
    exact s.srcBit_fpscrView _ (h.imp_left (mt (fieldBit_eq_twenty_iff f hk).mp))
  exact ⟨_, (State.ifFp_of_available hfp _).trans (State.fpDone_of_disabled h0 h1),
    fun k hk => hcopied k (by omega) (.inl fun h => by omega),
    fun h => hcopied 3 (by decide) (h.imp_left fun hne h5 => hne h5.1),
    srcBit_fpscrMoved_cleared s.fpscr f, fun _ hg => field4_setField4_of_ne _ _ hg, fun _ => rfl, rfl⟩

/-- The record form takes CR1 from FPSCR and keeps the other fields (R307). -/
theorem State.recordCr1_recordedFp (u : State) (rc : Bool) :
    recordedFp u (u.recordCr1 rc).advance rc := by
  cases rc with
  | false => exact ⟨fun _ => rfl, fun h => (by cases h)⟩
  | true =>
    exact ⟨fun h => (by cases h), fun _ => ⟨field4_setField4_same _ _ _,
      fun _ hg => field4_setField4_of_ne _ _ hg⟩⟩

/-- The record form leaves the FPRs. -/
theorem State.getFpr_recordCr1_advance (u : State) (rc : Bool) (q : RegNum) :
    (u.recordCr1 rc).advance.getFpr q = u.getFpr q := by
  cases rc <;> rfl

theorem State.recordCr1_fpDone_of_disabled {u : State} (h0 : u.msrBit msrFE0 = false)
    (h1 : u.msrBit msrFE1 = false) (rc : Bool) :
    (u.recordCr1 rc).fpDone = .next (u.recordCr1 rc).advance := by
  cases rc with
  | false => exact State.fpDone_of_disabled h0 h1
  | true => exact State.fpDone_of_disabled (u := u.recordCr1 true) h0 h1

/-- Settles O21: the FPR's low-order word is what a read gives. -/
theorem mffsResult : Obligations.MffsResult := by
  intro frd rc s hfp h0 h1
  refine ⟨_, (State.ifFp_of_available hfp _).trans
      (State.recordCr1_fpDone_of_disabled (u := s.setFpr frd _) h0 h1 rc),
    fun b hb => ?_, fun q hq => ?_, State.recordCr1_recordedFp _ rc, fun _ => ?_, ?_⟩
  case refine_1 =>
    rw [State.getFpr_recordCr1_advance, State.getFpr_setFpr_same, lo32_joinWords]
    exact s.srcBit_fpscrView _ hb
  case refine_2 => rw [State.getFpr_recordCr1_advance, State.getFpr_setFpr_of_ne s _ hq]
  all_goals cases rc <;> rfl

end Sys2Proof.Machine

/-! The branches (spec 43_branch.md R321 to R329): the end that all four share, CTR and the condition
of BO and BI, and the targets as numbers. -/

namespace Sys2Proof.Machine

open Statements

/-! ## The end of a branch -/

section BranchEnd

variable (s : State) (ctr : DWord) (lk taken : Bool) (target : DWord)

/-- LR is written with LK = 1 whether or not the branch is taken (R327). -/
theorem State.branchEnd_linkRule : linkRule lk s (s.branchEnd ctr lk taken target) := by
  cases lk with
  | false => exact ⟨fun h => (by cases h), fun _ => rfl⟩
  | true => exact ⟨fun _ => s.nextPc_toNat, fun h => (by cases h)⟩

theorem State.branchEnd_branchFrame : branchFrame s (s.branchEnd ctr lk taken target) :=
  ⟨fun _ => rfl, rfl⟩

variable {taken target}

theorem State.branchEnd_goesTo {cond : Prop} {z : Int} (hcond : taken = true ↔ cond)
    (htarget : (target.toNat : Int) = z % 2 ^ modeWidth s) :
    goesTo cond z s (s.branchEnd ctr lk taken target) := by
  cases taken with
  | false => exact ⟨fun h => absurd (hcond.mpr h) Bool.false_ne_true, fun _ => s.nextPc_toNat⟩
  | true => exact ⟨fun _ => htarget, fun h => absurd (hcond.mp rfl) h⟩

/-- What a branch's end leaves, for a condition and a target given as the rules have them. -/
theorem State.branchEnd_spec {cond : Prop} {z : Int} (hcond : taken = true ↔ cond)
    (htarget : (target.toNat : Int) = z % 2 ^ modeWidth s) :
    linkRule lk s (s.branchEnd ctr lk taken target) ∧
      goesTo cond z s (s.branchEnd ctr lk taken target) ∧
      branchFrame s (s.branchEnd ctr lk taken target) :=
  ⟨s.branchEnd_linkRule _ _ _ _, s.branchEnd_goesTo _ _ hcond htarget,
    s.branchEnd_branchFrame _ _ _ _⟩

end BranchEnd

/-! ## CTR and the condition -/

/-- The decrement is over the width of the register (R95, R328). -/
theorem State.ctrRule_of_branchCtr {s t : State} {v : BitVec 5} (h : t.ctr = s.branchCtr v) :
    ctrRule v s t := by
  constructor <;> intro hbo
  · exact h.trans (if_pos hbo)
  · have hctr : t.ctr = s.x (s.ctr - 1#64) := h.trans (if_neg (by simpa [boBit, bo] using hbo))
    rw [hctr, State.x_toNat, BitVec.toNat_sub, xlen]
    split <;> simp <;> omega

theorem State.condOk_iff (s : State) (v bi : BitVec 5) :
    s.condOk v bi = true ↔ bo v 0 = true ∨ srcBit s.cr bi = bo v 1 := by
  simp [State.condOk, boBit, bo]

/-- The CTR test looks at the decremented CTR over the width of the mode (R321, R328). -/
theorem State.ctrTestValue_bne_zero (s : State) (v : BitVec 5) :
    (s.ctrTestValue v != 0) = decide (modeNat s (s.branchCtr v) ≠ 0) := by
  have hnat : (s.ctrTestValue v).toNat = modeNat s (s.branchCtr v) :=
    (s.ea_toNat _).trans (modeNat_eq_mod s _).symm
  rw [← hnat, Bool.eq_iff_iff, bne_iff_ne, decide_eq_true_iff]
  exact not_congr BitVec.toNat_inj.symm

theorem State.ctrOk_iff (s : State) (v : BitVec 5) :
    s.ctrOk v = true ↔ bo v 2 = true ∨ (modeNat s (s.branchCtr v) ≠ 0 ∧ bo v 3 = false) ∨
      (modeNat s (s.branchCtr v) = 0 ∧ bo v 3 = true) := by
  rw [State.ctrOk, s.ctrTestValue_bne_zero, Bool.or_eq_true]
  refine or_congr_right ?_
  by_cases h : modeNat s (s.branchCtr v) = 0 <;> simp [boBit, bo, h]

theorem State.branchTaken_iff {s t : State} {v : BitVec 5} (h : t.ctr = s.branchCtr v)
    (bi : BitVec 5) : s.branchTaken v bi = true ↔ takenRule v bi s t := by
  rw [State.branchTaken, Bool.and_eq_true, s.ctrOk_iff, s.condOk_iff, takenRule, h]

/-! ## Targets -/

/-- A displacement field with two zeros to its right counts as four times its signed value. -/
theorem signExtend_append_zeros_toInt {w : Nat} (hw : w + 2 ≤ 64) (d : BitVec w) :
    ((d ++ 0#2).signExtend 64).toInt = 4 * d.toInt := by
  rw [BitVec.toInt_signExtend_of_le hw, BitVec.toInt_eq_toNat_cond, BitVec.toInt_eq_toNat_cond,
    BitVec.toNat_append, BitVec.toNat_zero, Nat.or_zero, Nat.shiftLeft_eq, Nat.pow_add]
  split <;> split <;> omega

/-- From a word-aligned pc the sum with the displacement is a multiple of 4, so that clearing the two
low-order bits leaves it (R323, R324, R329). -/
theorem State.branchTarget_toNat {s : State} (hpc : s.pcAligned = true) {disp : DWord} {z : Int}
    (hdisp : disp.toInt = 4 * z) (aa : Bool) :
    ((s.branchTarget disp aa).toNat : Int) =
      ((if aa then 0 else (s.pc.toNat : Int)) + 4 * z) % 2 ^ modeWidth s := by
  rw [State.pcAligned_iff] at hpc
  rw [BitVec.toInt_eq_toNat_cond] at hdisp
  rw [State.branchTarget, State.ea_toNat, wordAligned_toNat, modeWidth]
  cases aa with
  | false =>
    rw [if_neg Bool.false_ne_true, if_neg Bool.false_ne_true, BitVec.toNat_add]
    split at hdisp <;> split <;> omega
  | true =>
    rw [if_pos rfl, if_pos rfl]
    split at hdisp <;> split <;> omega

theorem State.registerTarget_toNat (s : State) (v : DWord) :
    ((s.registerTarget v).toNat : Int) = (4 * (v.toNat / 4 : Nat) : Int) % 2 ^ modeWidth s := by
  rw [State.registerTarget, State.ea_toNat, wordAligned_toNat, modeWidth]
  split <;> omega

/-! ## The instructions -/

/-- Settles O25: CTR by `State.ctrRule_of_branchCtr`, the rest by `State.branchEnd_spec`. -/
theorem branchRelative : Obligations.BranchRelative := by
  intro li bd v bi aa lk s hpc
  have hli := State.branchTarget_toNat hpc (signExtend_append_zeros_toInt (by decide) li) aa
  have hbd := State.branchTarget_toNat hpc (signExtend_append_zeros_toInt (by decide) bd) aa
  exact ⟨⟨_, rfl, rfl, s.branchEnd_spec _ _ (iff_true_intro rfl) hli⟩,
    _, rfl, State.ctrRule_of_branchCtr rfl, s.branchEnd_spec _ _ (State.branchTaken_iff rfl bi) hbd⟩

/-- Settles O26: as for `bc`; with BO{2} = 1 `bcctr` leaves CTR, the target, as it is. -/
theorem branchRegister : Obligations.BranchRegister := by
  intro v bi lk s
  have hlr := s.registerTarget_toNat s.lr
  have hctr := s.registerTarget_toNat s.ctr
  exact ⟨⟨_, rfl, State.ctrRule_of_branchCtr rfl,
      s.branchEnd_spec _ _ (State.branchTaken_iff rfl bi) hlr⟩,
    fun hbo => ⟨_, if_pos hbo, rfl, s.branchEnd_spec _ _ (s.condOk_iff v bi) hctr⟩⟩

end Sys2Proof.Machine

/-! The time base read by `mftb` and the decrementer (spec 44_timebase_dec.md R341, R351, R352). -/

namespace Sys2Proof.Machine

open Statements

/-! ## Reads of the time base -/

/-- A register of XLEN bits holds TBU and TBL, or TBL alone (R341). -/
theorem State.x_timeBase_toNat (s : State) :
    (s.x s.timeBase).toNat =
      if s.cfg.xlen64 then s.tbu.toNat * 2 ^ 32 + s.tbl.toNat else s.tbl.toNat := by
  have htbu := s.tbu.isLt
  have htbl := s.tbl.isLt
  rw [State.x_toNat, State.timeBase, joinWords_toNat, xlen]
  split <;> omega

/-- Settles O32: rD is written with the whole time base, of which it holds XLEN bits, or with TBU,
which fits every width. -/
theorem mftbReads : Obligations.MftbReads := by
  intro rd s
  refine ⟨⟨_, rfl, ?_, s.gprsBut_setGpr_advance _ _, fun _ => rfl, rfl⟩,
    _, rfl, ?_, s.gprsBut_setGpr_advance _ _, fun _ => rfl, rfl⟩
  · rw [State.getGpr_setGpr_advance, State.x_timeBase_toNat]
  · rw [State.getGpr_setGpr_advance, State.x_zext, zext_toNat]

/-! ## The decrementer -/

/-- Bit 0 of DEC, in source numbering, changes from 0 to 1 in a decrement of 0 only (R352). -/
theorem decrement_sets_sign_iff (d : Word) :
    (!d.getLsbD 31 && (d - 1#32).getLsbD 31) = decide (d.toNat < 1) := by
  have hlt := d.isLt
  rw [← BitVec.msb_eq_getLsbD_last, ← BitVec.msb_eq_getLsbD_last, BitVec.msb_eq_decide,
    BitVec.msb_eq_decide, BitVec.toNat_sub, ← decide_not, ← Bool.decide_and]
  exact decide_eq_decide.mpr (by simp; omega)

/-- DEC passes through zero in `m + k` decrements if it does in the first `m` or, from the value
these leave, in the other `k`. -/
theorem passes_zero_add (d : Word) (m k : Nat) :
    (decide (d.toNat < m) || decide ((d - BitVec.ofNat 32 m).toNat < k)) =
      decide (d.toNat < m + k) := by
  have hlt := d.isLt
  rw [← Bool.decide_or, BitVec.toNat_sub, BitVec.toNat_ofNat]
  exact decide_eq_decide.mpr (by omega)

/-- `m` and then `k` subtracted from a word are `m + k` subtracted. -/
theorem sub_ofNat_sub_ofNat (d : Word) (m k : Nat) :
    d - BitVec.ofNat 32 m - BitVec.ofNat 32 k = d - BitVec.ofNat 32 (m + k) := by
  rw [BitVec.ofNat_add, BitVec.sub_sub]

/-- One decrement (R351, R352). -/
theorem State.decStep_eq (s : State) :
    s.decStep = { s with dec := s.dec - BitVec.ofNat 32 1
                         decRequest := s.decRequest || decide (s.dec.toNat < 1) } := by
  rw [← decrement_sets_sign_iff]
  rfl

/-- `n` decrements in one stroke. -/
theorem State.decSteps_eq_sub (n : Nat) (s : State) :
    State.decSteps n s = { s with dec := s.dec - BitVec.ofNat 32 n
                                  decRequest := s.decRequest || decide (s.dec.toNat < n) } := by
  induction n generalizing s with
  | zero => simp [State.decSteps]
  | succ n ih =>
    rw [State.decSteps, ih, State.decStep_eq]
    simp only [sub_ofNat_sub_ofNat, Bool.or_assoc, passes_zero_add, Nat.add_comm 1 n]

/-! ## The ticks of a boundary -/

/-- The single tick is one tick at once. -/
theorem State.tick_eq_applyTicks (s : State) : s.tick = s.applyTicks 1 := by
  rw [State.tick, State.decSteps_eq_sub, State.applyTicks, Nat.one_mul]

/-- No ticks leave the state. -/
theorem State.applyTicks_zero (s : State) : s.applyTicks 0 = s := by
  simp [State.applyTicks, State.timeBase]

/-- Ticks at once add up. -/
theorem State.applyTicks_applyTicks (s : State) (m n : Nat) :
    (s.applyTicks m).applyTicks n = s.applyTicks (m + n) := by
  have htb : (s.applyTicks m).timeBase + BitVec.ofNat 64 n =
      s.timeBase + BitVec.ofNat 64 (m + n) := by
    rw [BitVec.ofNat_add, ← BitVec.add_assoc]
    exact congrArg (· + BitVec.ofNat 64 n) (joinWords_hi32_lo32 _)
  rw [State.applyTicks, htb, State.applyTicks, State.applyTicks, Nat.add_mul, ← sub_ofNat_sub_ofNat,
    ← passes_zero_add, ← Bool.or_assoc]

/-- The ticks one after another are those at once. -/
theorem State.ticks_eq_applyTicks (n : Nat) (s : State) : State.ticks n s = s.applyTicks n := by
  induction n generalizing s with
  | zero => exact s.applyTicks_zero.symm
  | succ n ih =>
    calc State.ticks (n + 1) s
      _ = s.tick.applyTicks n := ih s.tick
      _ = (s.applyTicks 1).applyTicks n := by rw [State.tick_eq_applyTicks]
      _ = s.applyTicks (n + 1) := by rw [State.applyTicks_applyTicks, Nat.add_comm]

/-- Settles O54: by `State.ticks_eq_applyTicks`, whose DEC and request are read off. -/
theorem decrementerCounts : Obligations.DecrementerCounts := by
  intro n s
  rw [State.ticks_eq_applyTicks]
  refine ⟨rfl, ?_, ?_⟩
  · have hdec : (s.applyTicks n).dec = s.dec - BitVec.ofNat 32 (n * s.cfg.decPerTb) := rfl
    have hlt := s.dec.isLt
    rw [hdec, BitVec.toNat_sub, BitVec.toNat_ofNat]
    omega
  · simp [State.applyTicks]

end Sys2Proof.Machine

/-! System call and return, the segment-register moves, and the floating-point exception a change of
MSR raises (spec 45_msr_sr_system.md R364 to R374). -/

namespace Sys2Proof.Machine

open Statements

/-! ## System call -/

/-- Settles O35: `sc` is the entry of `State.take_entered`, with no guard before it. -/
theorem systemCallEntry : Obligations.SystemCallEntry :=
  fun s => ⟨_, rfl, s.take_entered _ _ _, fun _ => rfl, rfl⟩

/-! ## Changes of MSR under FEX -/

/-- The state after a move of `m` to MSR, before what may follow it (R166, R367). -/
def State.movedMsr (s : State) (m : DWord) : State :=
  { s with msr := s.x m, pc := State.ea { s with msr := s.x m } s.nextPc }

/-- A change of MSR to the state `t` behind its guards: where the instruction exists, at supervisor
level, and not `stop`. -/
def State.guardedMsrChange (s : State) (there stop : Bool) (t : State) : Result :=
  s.ifExists there <| s.ifSupervisor <|
    if stop then .refused .powerManagement else s.afterMsrChange t

/-- The four instructions that change MSR give MSR, pc and the prefetch record new values in which
FPSCR plays no part; the moves alone can stop, for POW. -/
theorem exec_msrChange (r : RegNum) (s : State) :
    ∀ i ∈ [Instr.mtmsr r, .mtmsrd r, .rfi, .rfid], ∃ (there stop : Bool) (t : State),
      t = { s with msr := t.msr, pc := t.pc, storedSinceSync := t.storedSinceSync } ∧
      ∀ f, exec i { s with fpscr := f } =
        State.guardedMsrChange { s with fpscr := f } there stop { t with fpscr := f } := by
  simp only [List.forall_mem_cons]
  refine ⟨?mtmsr, ?mtmsrd, ?rfi, ?rfid, fun _ h => absurd h List.not_mem_nil⟩
  case mtmsr =>
    exact ⟨s.cfg.has32BitForms, s.cfg.hasPow && (s.mtmsrValue r).getLsbD msrPOW,
      s.movedMsr (s.mtmsrValue r), rfl, fun _ => rfl⟩
  case mtmsrd =>
    exact ⟨s.cfg.xlen64, s.cfg.hasPow && (s.getGpr r).getLsbD msrPOW, s.movedMsr (s.getGpr r), rfl,
      fun _ => rfl⟩
  case rfi =>
    exact ⟨s.cfg.has32BitForms, false, s.returnTo s.msrFromSrr1Low, rfl, fun _ => rfl⟩
  case rfid => exact ⟨s.cfg.xlen64, false, s.returnTo s.msrFromSrr1, rfl, fun _ => rfl⟩

/-- No exception entry leaves a floating-point exception mode on (R449). -/
theorem State.take_feOff (s : State) (e : Exc) (a info : DWord) :
    ¬((s.take e a info).msrBit msrFE0 = true ∨ (s.take e a info).msrBit msrFE1 = true) := by
  obtain ⟨_, _, _, hoff, _⟩ := s.take_entered e a info
  simp [hoff msrFE0 (by decide), hoff msrFE1 (by decide)]

/-- A guarded change after which a floating-point exception mode is on passed its guards: an exception
taken instead would have left the modes off (R449). -/
theorem State.guardedMsrChange_of_feOn {s t u : State} {there stop : Bool}
    (h : s.guardedMsrChange there stop t = .next u)
    (hon : u.msrBit msrFE0 = true ∨ u.msrBit msrFE1 = true) :
    there = true ∧ s.user = false ∧ stop = false ∧ s.afterMsrChange t = .next u := by
  obtain ⟨hthere, h⟩ | ⟨-, rfl⟩ := State.ifExists_next h
  case inr => exact absurd hon (State.take_feOff _ _ _ _)
  obtain ⟨hsup, h⟩ | ⟨-, rfl⟩ := State.ifSupervisor_next h
  case inr => exact absurd hon (State.take_feOff _ _ _ _)
  cases stop with
  | true => cases h
  | false => exact ⟨hthere, hsup, rfl, h⟩

theorem State.guardedMsrChange_of_allowed {s t : State} (hsup : s.user = false) :
    s.guardedMsrChange true false t = s.afterMsrChange t :=
  (State.ifExists_of_there rfl _).trans (State.ifSupervisor_of_supervisor hsup _)

/-- Where a change of MSR turns a floating-point exception mode on with FPSCR clear, it is the
instruction's own (no guard took an exception), and with any FPSCR it is the same change. -/
theorem exec_msrChange_of_feOn {r : RegNum} {s u : State} {i : Instr}
    (hi : i ∈ [Instr.mtmsr r, .mtmsrd r, .rfi, .rfid]) (hu : exec i { s with fpscr := 0 } = .next u)
    (hon : u.msrBit msrFE0 = true ∨ u.msrBit msrFE1 = true) :
    u = { s with fpscr := 0, msr := u.msr, pc := u.pc, storedSinceSync := u.storedSinceSync } ∧
      exec i s = s.afterMsrChange { u with fpscr := s.fpscr } := by
  obtain ⟨there, stop, t, ht, hexec⟩ := exec_msrChange r s i hi
  rw [hexec] at hu
  obtain ⟨rfl, hsup, rfl, hchange⟩ := State.guardedMsrChange_of_feOn hu hon
  have hclear : fpscrFEX 0 = false := by decide
  cases (State.afterMsrChange_of_quiet hclear).symm.trans hchange
  exact ⟨congrArg (fun t : State => { t with fpscr := 0 }) ht,
    (hexec s.fpscr).trans (State.guardedMsrChange_of_allowed hsup)⟩

/-- A change of MSR that turns a mode on under FEX takes the enabled exception, its information saying
that SRR0 is the next instruction (R367, R437, R448). -/
theorem State.afterMsrChange_of_feOn {s t : State} (hfex : fpscrFEX t.fpscr = true)
    (hne : t.msrBit msrFE0 ≠ s.msrBit msrFE0 ∨ t.msrBit msrFE1 ≠ s.msrBit msrFE1)
    (hon : t.msrBit msrFE0 = true ∨ t.msrBit msrFE1 = true) :
    s.afterMsrChange t = .next (t.take (.program .fpEnabled) t.pc 0x00110000) := by
  have hfe : t.feEnabled = true := Bool.or_eq_true_iff.mpr hon
  have hchanged : (s.msrBit msrFE0 != t.msrBit msrFE0 || s.msrBit msrFE1 != t.msrBit msrFE1) = true :=
    Bool.or_eq_true_iff.mpr
      (hne.imp (fun h => bne_iff_ne.mpr h.symm) (fun h => bne_iff_ne.mpr h.symm))
  rw [State.afterMsrChange, hchanged, hfe, hfex]
  rfl

/-- Settles O24: the instruction is the change of `exec_msrChange_of_feOn`, which the exception of
`State.afterMsrChange_of_feOn` follows; the entry reads no bit of FPSCR. -/
theorem msrChangeRaisesFp : Obligations.MsrChangeRaisesFp := by
  intro r s u hfex i hi hu hne hon
  obtain ⟨hframe, hexec⟩ := exec_msrChange_of_feOn hi hu hon
  have htake := hexec.trans (State.afterMsrChange_of_feOn hfex hne hon)
  exact ⟨_, htake, State.take_entered { u with fpscr := s.fpscr } _ _ _, (congrArg State.gpr hframe :),
    rfl, fun a => (congrArg (fun v : State => Memory.read v.mem a) hframe :)⟩

/-! ## Segment registers -/

/-- The field an address selects a segment register by, as a number (R371). -/
theorem srSelect_eq_iff (v : DWord) (k : BitVec 4) :
    k = srSelect v ↔ k.toNat = (lo32 v).toNat / 2 ^ 28 := by
  rw [← BitVec.toNat_inj, srSelect, BitVec.extractLsb'_toNat, Nat.shiftRight_eq_div_pow, lo32_toNat]
  omega

/-- The four moves where they exist, at supervisor level. -/
theorem exec_segmentMove {s : State} (hu : s.user = false)
    (hex : s.cfg.xlen64 = false ∨ s.cfg.hasBridge = true) (r rb : RegNum) (n : BitVec 4) :
    exec (.mtsr r n) s = .next (s.setSr n (s.gprWord r)).advance ∧
    exec (.mtsrin r rb) s = .next (s.setSr (srSelect (s.getGpr rb)) (s.gprWord r)).advance ∧
    exec (.mfsr r n) s = .next (s.setGpr r (s.srView n)).advance ∧
    exec (.mfsrin r rb) s = .next (s.setGpr r (s.srView (srSelect (s.getGpr rb)))).advance := by
  have h32 : s.cfg.has32BitForms = true := by
    rcases hex with h | h <;> simp [Config.has32BitForms, h]
  have hguards (k : Result) : s.ifExists s.cfg.has32BitForms (s.ifSupervisor k) = k :=
    (State.ifExists_of_there h32 _).trans (State.ifSupervisor_of_supervisor hu k)
  exact ⟨hguards _, hguards _, hguards _, hguards _⟩

/-- The reserved bits of a segment register lie in its bits 24 to 27, and only where T = 0 on a
32-bit implementation (R143, R144, R374). -/
theorem srReserved_getLsbD {c : Config} {w : Word} {b : Nat}
    (h : c.xlen64 = true ∨ w.getLsbD 31 = true ∨ b < 24 ∨ 27 < b) :
    (srReserved c w).getLsbD b = false := by
  unfold srReserved
  split
  · exact BitVec.getLsbD_zero
  · next hT =>
    have hfield : ∀ b < 64, b < 24 ∨ 27 < b → (0x0F000000#64).getLsbD b = false := by decide
    obtain ⟨hx, ht⟩ : c.xlen64 = false ∧ w.getLsbD 31 = false := by simpa using hT
    by_cases hb : b < 64
    · exact hfield b hb (by simpa only [hx, ht, Bool.false_eq_true, false_or] using h)
    · exact BitVec.getLsbD_of_ge _ b (Nat.le_of_not_lt hb)

/-- A read of a segment register, as a general register holds it, gives every bit that is not reserved
or was last written as 0 (R32, R372). -/
theorem State.x_srView_getLsbD (s : State) (k : BitVec 4) {b : Nat}
    (h : s.cfg.xlen64 = true ∨ (s.getSr k).getLsbD 31 = true ∨ b < 24 ∨ 27 < b ∨
      (s.getSr k).getLsbD b = false) :
    (s.x (s.srView k)).getLsbD b = (s.getSr k).getLsbD b := by
  have hzext := zext_getLsbD (s.getSr k) b
  cases hbit : (s.getSr k).getLsbD b with
  | false => exact s.x_getLsbD_of_zero (State.view_getLsbD_of_zero s _ _ _ (hzext.trans hbit))
  | true =>
    have hb : b < xlen s := lt_of_lt_of_le (BitVec.lt_of_getLsbD hbit) (xlen_le s).1
    have hres : (srReserved s.cfg (s.getSr k)).getLsbD b = false :=
      srReserved_getLsbD (by simpa [hbit] using h)
    rw [State.x_getLsbD s _ hb, State.srView, State.view_getLsbD_of_defined s _ _ _ hres, hzext, hbit]

/-- Settles O34: a write is `State.setSr`, a read a view of the register. -/
theorem segmentMoves : Obligations.SegmentMoves := by
  intro r rb n s hu hex
  obtain ⟨hmtsr, hmtsrin, hmfsr, hmfsrin⟩ := exec_segmentMove hu hex r rb n
  refine ⟨fun i k hi => ?_, fun i k hi => ?_⟩
  · have hexec : exec i s = .next (s.setSr k (s.gprWord r)).advance := by
      obtain ⟨rfl, rfl⟩ | ⟨rfl, hk⟩ := hi
      · exact hmtsr
      · rw [(srSelect_eq_iff _ k).mpr hk]
        exact hmtsrin
    exact ⟨_, hexec, s.getSr_setSr_same k _, fun q hq => s.getSr_setSr_of_ne _ hq, fun _ => rfl, rfl⟩
  · have hexec : exec i s = .next (s.setGpr r (s.srView k)).advance := by
      obtain ⟨rfl, rfl⟩ | ⟨rfl, hk⟩ := hi
      · exact hmfsr
      · rw [(srSelect_eq_iff _ k).mpr hk]
        exact hmfsrin
    refine ⟨_, hexec, fun b hb => ?_, s.gprsBut_setGpr_advance _ _, fun _ => rfl, rfl⟩
    rw [State.getGpr_setGpr_advance]
    exact s.x_srView_getLsbD k hb

/-! ## A system call and its return -/

/-- What the return of the implementation's width restores MSR to: `rfid` on 64 bits, `rfi` on 32. -/
def State.restoredMsr (s : State) : DWord :=
  if s.cfg.xlen64 then s.msrFromSrr1 else s.msrFromSrr1Low

/-- The return of the implementation's width, at supervisor level. -/
theorem exec_return {s : State} (hu : s.user = false) :
    exec (if s.cfg.xlen64 then .rfid else .rfi) s = s.afterMsrChange (s.returnTo s.restoredMsr) := by
  unfold State.restoredMsr
  cases hx : s.cfg.xlen64 with
  | true => exact (State.ifExists_of_there hx _).trans (State.ifSupervisor_of_supervisor hu _)
  | false =>
    have h32 : s.cfg.has32BitForms = true := by simp [Config.has32BitForms, hx]
    exact (State.ifExists_of_there h32 _).trans (State.ifSupervisor_of_supervisor hu _)

/-- It restores every bit of the register but those under INFO_MASK (R154). -/
theorem State.restoredMsr_getLsbD (s : State) {b : Nat} (hb : b < xlen s) :
    s.restoredMsr.getLsbD b = if infoMask.getLsbD b then s.msr.getLsbD b else s.srr1.getLsbD b := by
  have hxlen := xlen_le s
  obtain ⟨hrfid, hrfi⟩ := s.msrFromSrr1_getLsbD (b := b) (by omega)
  unfold State.restoredMsr
  split
  · exact hrfid
  · next hx =>
    have hlt : ¬32 ≤ b := by simpa [xlen, hx] using hb
    simpa [hlt] using hrfi

/-- The MSR bits under INFO_MASK, which SRR1 does not save, are ILE, POW and reserved ones. -/
theorem infoMask_cases (c : Config) {b : Nat} (h : infoMask.getLsbD b = true) :
    b = msrILE ∨ b = msrPOW ∨ (msrDefined c).getLsbD b = false := by
  have hbits : ∀ b < 32, infoMask.getLsbD b = true → b = msrILE ∨ b = msrPOW ∨
      ((0x1F973#64).getLsbD b = false ∧ b ≠ msrPOW ∧ b ≠ msrSE ∧ b ≠ msrBE ∧ b ≠ msrSF ∧
        b ≠ msrISF) := by decide
  obtain hILE | hPOW | ⟨hfixed, hPOW, hSE, hBE, hSF, hISF⟩ := hbits b (infoMask_lt h) h
  · exact .inl hILE
  · exact .inr (.inl hPOW)
  · refine .inr (.inr ?_)
    simp only [msrDefined, BitVec.getLsbD_or, hfixed, bitIf_getLsbD _ (show msrPOW < 64 by decide),
      bitIf_getLsbD _ (show msrSE < 64 by decide), bitIf_getLsbD _ (show msrBE < 64 by decide),
      bitIf_getLsbD _ (show msrSF < 64 by decide), bitIf_getLsbD _ (show msrISF < 64 by decide)]
    simp [hPOW, hSE, hBE, hSF, hISF]

/-- An entry keeps the MSR bits SRR1 does not save, where no reserved bit and not POW is 1. -/
theorem State.take_msrBit_of_infoMask {s : State}
    (hres : ∀ b, (msrDefined s.cfg).getLsbD b = false → s.msr.getLsbD b = false)
    (hpow : s.msrBit msrPOW = false) (e : Exc) (a info : DWord) {b : Nat}
    (hb : infoMask.getLsbD b = true) : (s.take e a info).msrBit b = s.msrBit b := by
  obtain ⟨_, _, _, hoff, hundef, hile, _⟩ := s.take_entered e a info
  obtain rfl | rfl | hd := infoMask_cases s.cfg hb
  · exact hile
  · rw [hoff msrPOW (by decide), hpow]
  · rw [hundef b hd, State.msrBit, hres b hd]

/-- An MSR with no reserved 1 reads as it is (R32). -/
theorem State.msrView_getLsbD_of_noReserved {s : State}
    (hres : ∀ b, (msrDefined s.cfg).getLsbD b = false → s.msr.getLsbD b = false)
    (who : ReservedReader) {b : Nat} (hb : b < xlen s) :
    (s.msrView who).getLsbD b = s.msr.getLsbD b := by
  cases hd : (msrDefined s.cfg).getLsbD b with
  | true => exact s.msrView_getLsbD who hb hd
  | false =>
    rw [hres b hd]
    exact s.x_getLsbD_of_zero (State.view_getLsbD_of_zero s _ _ _ (hres b hd))

/-- A register-wide value is determined by its bits below XLEN. -/
theorem State.x_eq_of_getLsbD {s : State} {v w : DWord} (hw : s.x w = w)
    (h : ∀ b, b < xlen s → v.getLsbD b = w.getLsbD b) : s.x v = w := by
  rw [← hw]
  apply BitVec.eq_of_getLsbD_eq
  intro b _
  by_cases hb : b < xlen s
  · rw [State.x_getLsbD s v hb, State.x_getLsbD s w hb, h b hb]
  · have hout : (s.cfg.xlen64 || decide (b < 32)) = false := by
      cases hx : s.cfg.xlen64 <;> simp [xlen, hx] at hb ⊢ <;> omega
    rw [State.x, State.x, xlenOf_getLsbD, xlenOf_getLsbD, hout, Bool.and_false, Bool.and_false]

/-- What an entry saves of MSR and what it keeps are together all of it: the return restores the MSR
of before, where that holds no reserved 1 and POW is 0 (R154, R448, R449). -/
theorem State.restoredMsr_take {s : State} (hw : s.x s.msr = s.msr)
    (hres : ∀ b, (msrDefined s.cfg).getLsbD b = false → s.msr.getLsbD b = false)
    (hpow : s.msrBit msrPOW = false) (e : Exc) (a info : DWord) :
    s.x (s.take e a info).restoredMsr = s.msr := by
  refine State.x_eq_of_getLsbD hw fun b hb => ?_
  have hxlen := xlen_le s
  rw [State.restoredMsr_getLsbD (s.take e a info) hb]
  split
  · next hi => exact State.take_msrBit_of_infoMask hres hpow e a info hi
  · next hi =>
    calc (s.x (s.savedMsr info)).getLsbD b
      _ = (s.savedMsr info).getLsbD b := s.x_getLsbD _ hb
      _ = (s.msrView .exceptionEntry).getLsbD b := by
        rw [s.savedMsr_getLsbD info (by omega), if_neg hi]
      _ = s.msr.getLsbD b := State.msrView_getLsbD_of_noReserved hres _ hb

theorem wordAligned_of_mod_four {v : DWord} (h : v.toNat % 4 = 0) : wordAligned v = v := by
  apply BitVec.eq_of_toNat_eq
  rw [wordAligned_toNat]
  omega

/-- Masking the saved address again, as a return does, leaves the address of the next instruction. -/
theorem State.ea_wordAligned_nextPc {s : State} (h : s.pcAligned = true) :
    s.ea (wordAligned (wordAligned s.nextPc)) = s.nextPc := by
  have hnext := wordAligned_of_mod_four (State.nextPc_toNat_mod_four h)
  rw [hnext, hnext, State.nextPc, State.ea_ea]

/-- The state a system call enters (R364). -/
abbrev State.called (s : State) : State := s.take .systemCall (s.pc + 4) 0

/-- The return from a system call, when no floating-point exception follows it. -/
theorem State.returnTo_called {s : State} (hpc : s.pcAligned = true)
    (hmsr : s.x s.called.restoredMsr = s.msr) :
    s.called.returnTo s.called.restoredMsr =
      { s with srr0 := s.called.srr0, srr1 := s.called.srr1, pc := s.nextPc, storedSinceSync := [],
               lastExc := some .systemCall } := by
  have hx : s.called.x s.called.restoredMsr = s.msr := hmsr
  rw [State.returnTo, hx]
  show ({ s with srr0 := _, srr1 := _, pc := s.ea (wordAligned (wordAligned s.nextPc)),
                 storedSinceSync := [], lastExc := some .systemCall } : State) = _
  rw [State.ea_wordAligned_nextPc hpc]

/-- Settles O37: the entry goes to supervisor level, the return restores MSR by
`State.restoredMsr_take` and pc by `State.returnTo_called`, and the restored modes raise no
floating-point exception. -/
theorem callReturnRoundTrip : Obligations.CallReturnRoundTrip := by
  intro s t u hwidths hpc hres hpow hfe hsc hret
  cases hsc
  have hw : s.x s.msr = s.msr := narrow_iff.mp (s.widthsOk_iff.mp hwidths).msr
  have hback := State.returnTo_called hpc
    (State.restoredMsr_take hw hres hpow .systemCall (s.pc + 4) 0)
  obtain ⟨_, _, _, hoff, _⟩ := s.take_entered .systemCall (s.pc + 4) 0
  have hsup : s.called.user = false := hoff msrPR (by decide)
  have hquiet : s.called.afterMsrChange (s.called.returnTo s.called.restoredMsr) =
      .next (s.called.returnTo s.called.restoredMsr) :=
    State.afterMsrChange_of_quietFe rfl (by rw [hback]; exact fun hfex => .inl (hfe hfex))
  cases ((exec_return hsup).trans (hquiet.trans (congrArg _ hback))).symm.trans hret
  exact ⟨rfl, rfl, rfl⟩

end Sys2Proof.Machine

/-! The trap instructions (spec 46_other_named.md R406, R407). -/

namespace Sys2Proof.Machine

open Statements

/-- The executable test is the disjunction of the selected conditions (R406). -/
theorem trapCondition_iff (c : BitVec 5) (a b : Word) :
    trapCondition c a b = true ↔ trapSelected c a b := by
  simp only [trapCondition, trapSelected, Bool.or_eq_true, Bool.and_eq_true, decide_eq_true_iff,
    beq_iff_eq, or_assoc]

/-- `tw` and `twi` differ in their second word only (R407). -/
theorem exec_trap {c : BitVec 5} {ra rb : RegNum} {imm : BitVec 16} {s : State} {i : Instr} {b : Word}
    (h : i = Instr.tw c ra rb ∧ b = s.gprWord rb ∨ i = Instr.twi c ra imm ∧ b = imm.signExtend 32) :
    exec i s = s.trapIf (trapCondition c (s.gprWord ra) b) := by
  obtain ⟨rfl, rfl⟩ | ⟨rfl, rfl⟩ := h
  · rfl
  · rfl

/-- Settles O13: by `exec_trap` and `trapCondition_iff` the instruction moves on or takes the program
exception of `State.takeProgram_entered`. -/
theorem trapOnCondition : Obligations.TrapOnCondition := by
  intro c ra rb imm s i b hi
  rw [← trapCondition_iff, exec_trap hi]
  cases trapCondition c (s.gprWord ra) b with
  | false => exact ⟨fun _ => rfl, fun h => absurd h Bool.false_ne_true⟩
  | true =>
    obtain ⟨hentry, hmem, _⟩ := s.takeProgram_entered .trap
    exact ⟨fun h => absurd rfl h, fun _ => ⟨_, rfl, hentry, rfl, hmem⟩⟩

end Sys2Proof.Machine

/-! The boundary and the trace (spec 60_exceptions.md R438, R439, R444, R451, R454, R455). -/

namespace Sys2Proof.Machine

open Statements

/-! ## The order at a boundary -/

/-- With no reset, a processor in the checkstop state executes nothing; without inputs to come it
stops (R454, log 23). -/
theorem step_of_checkstop {s : State} (hreset : s.nextInput.reset = none)
    (hstop : s.atBoundary.checkstop = true) :
    step s = if s.inputs.isEmpty then .fault .checkstop else .next s.atBoundary := by
  rw [step, State.boundary, hreset]
  exact if_pos hstop

/-- With no reset, a processor that runs in a mode the model has takes the requests in the order
machine check, external interrupt, decrementer (R451). -/
theorem step_of_running {s t : State} (ht : t = s.atBoundary) (hreset : s.nextInput.reset = none)
    (hstop : t.checkstop = false) (hle : t.msrBit msrLE = false)
    (hpow : t.cfg.hasPow = true → t.msrBit msrPOW = false) :
    step s =
      if s.nextInput.mcRequest then .next t.takeMachineCheck
      else if t.msrBit msrEE && s.nextInput.extInt then .next (t.take .externalInterrupt t.pc 0)
      else if t.msrBit msrEE && t.decRequest then .next (t.take .decrementer t.pc 0)
      else t.runInstr := by
  subst ht
  rw [step, State.boundary, hreset]
  simp only [hstop, hle, and_eq_false_of_imp hpow, Bool.false_eq_true, if_false]

/-- A soft reset is the entry of the system reset exception, out of the checkstop state. -/
theorem State.softReset_entered (t : State) :
    entered t t.softReset .systemReset t.pc 0 ∧ t.softReset.checkstop = false :=
  ⟨t.take_entered .systemReset t.pc 0, rfl⟩

/-- Settles O51: a reset and the checkstop state come before every other test, and the requests
follow in the order of `step_of_running`. -/
theorem boundaryOrder : Obligations.BoundaryOrder := by
  intro s t ht
  refine ⟨fun hhard => ?hard, fun hreset hstop => ?checkstop, fun hsoft => ?soft,
    fun hreset hstop hle hpow => ?running⟩
  case hard =>
    rw [step, State.boundary, hhard]
    rfl
  case checkstop =>
    subst ht
    rw [step_of_checkstop hreset hstop]
    exact ⟨fun hin => if_neg (mt List.isEmpty_iff.mp hin),
      fun hin => if_pos (List.isEmpty_iff.mpr hin)⟩
  case soft =>
    refine ⟨t.softReset, ?_, t.softReset_entered⟩
    rw [step, State.boundary, hsoft, ht]
  case running =>
    rw [step_of_running ht hreset hstop hle hpow]
    refine ⟨fun hmc hme => ?_, fun hmc hme => ?_, fun hmc hee hext => ?_, fun hmc hee hext hdec => ?_⟩
    · rw [if_pos hmc, State.takeMachineCheck, if_pos hme]
      exact ⟨_, _, rfl, t.take_entered _ _ _⟩
    · simp only [hmc, if_true, State.takeMachineCheck, hme, Bool.false_eq_true, if_false]
    · simp only [hmc, hee, hext, Bool.and_self, Bool.false_eq_true, if_false, if_true]
      exact ⟨_, rfl, t.take_entered _ _ _, rfl⟩
    · simp only [hmc, hee, hext, hdec, Bool.and_self, Bool.and_false, Bool.false_eq_true, if_false,
        if_true]
      exact ⟨_, rfl, t.take_entered _ _ _, rfl⟩

/-! ## Trace -/

/-- The kinds of R444: the four branches, the two returns, and every other instruction. -/
theorem traceKind_cases (i : Instr) :
    (traceKind i = .branch ∧ isBranch i = true ∧ i ≠ .rfi ∧ i ≠ .rfid) ∨
    (traceKind i = .ret ∧ isBranch i = false ∧ (i = .rfi ∨ i = .rfid)) ∨
    (traceKind i = .plain ∧ isBranch i = false ∧ i ≠ .rfi ∧ i ≠ .rfid) := by
  cases i with
  | b | bc | bclr | bcctr => exact .inl ⟨rfl, rfl, nofun, nofun⟩
  | rfi => exact .inr (.inl ⟨rfl, rfl, .inl rfl⟩)
  | rfid => exact .inr (.inl ⟨rfl, rfl, .inr rfl⟩)
  | _ => exact .inr (.inr ⟨rfl, rfl, nofun, nofun⟩)

/-- An instruction is traced by SE unless it is a return, and by BE if it is a branch. -/
theorem State.traced_iff {t : State} {i : Instr} :
    t.traced i = true ↔
      t.cfg.hasSe = true ∧ t.msrBit msrSE = true ∧ i ≠ .rfi ∧ i ≠ .rfid ∨
        t.cfg.hasBe = true ∧ t.msrBit msrBE = true ∧ isBranch i = true := by
  unfold State.traced
  obtain ⟨hk, hb, hrfi, hrfid⟩ | ⟨hk, hb, hret⟩ | ⟨hk, hb, hrfi, hrfid⟩ := traceKind_cases i
  · simp [hk, hb, hrfi, hrfid]
  · have hnot : ¬(i ≠ .rfi ∧ i ≠ .rfid) := fun h => hret.elim h.1 h.2
    simp [hk, hb, hnot]
  · simp [hk, hb, hrfi, hrfid]

/-- What follows an instruction that completed without an exception: the trace exception where it is
traced, else nothing. -/
theorem State.afterInstr_of_completed {t u : State} (i : Instr) (hexc : u.lastExc = none)
    (hstop : u.checkstop = false) :
    t.afterInstr i (.next u) =
      if t.traced i then .next (u.take .trace u.pc 0) else .next u := by
  simp [State.afterInstr, hexc, hstop]

/-- Settles O52: the step is what follows the instruction, and `State.traced_iff` says when that is the
trace exception. -/
theorem traceFollows : Obligations.TraceFollows := by
  intro s t u w i hq hf hd hexec hexc hstop
  have hstep : step s = if t.traced i then .next (u.take .trace u.pc 0) else .next u := by
    rw [stepRunsDecoded s t w i hq hf hd, hexec, State.afterInstr_of_completed i hexc hstop]
  have huntraced (h : ¬t.traced i = true) : step s = .next u := hstep.trans (if_neg h)
  rw [State.traced_iff] at huntraced
  refine ⟨fun htraced => ?traced, fun hret => huntraced ?ret, fun hse hbe => huntraced ?off⟩
  case traced =>
    exact ⟨_, hstep.trans (if_pos (State.traced_iff.mpr htraced)), u.take_entered _ _ _,
      fun _ => rfl, rfl⟩
  case ret =>
    obtain rfl | rfl := hret
    · simp [isBranch]
    · simp [isBranch]
  case off =>
    rintro (⟨hasSe, se, -⟩ | ⟨hasBe, be, branch⟩)
    · simp [hasSe, se] at hse
    · simp [hasBe, be, branch] at hbe

end Sys2Proof.Machine
